-- ==== Sys2Proof/Word.lean ====
section
/-! DEFINITION. The word types of the controller and the level of a line (00_scope.md R10, R11). -/

namespace Sys2Proof

/-- `byte` of R10. -/
abbrev Byte := BitVec 8

/-- `u24` of R10. -/
abbrev U24 := BitVec 24

/-- The 16-bit request word of R53. -/
abbrev ReqWord := BitVec 16

/-- The level of a line (R11): `low` is 0, `high` is 1. -/
inductive Level where
  | low
  | high
deriving DecidableEq, Repr, Inhabited

/-- The other level. -/
def Level.flip : Level → Level
  | .low => .high
  | .high => .low

/-- The level that stands for a bit. -/
def Level.ofBool : Bool → Level
  | false => .low
  | true => .high

end Sys2Proof
end

