-- ==== Sys2Proof/Syntax.lean ====
section
/-! DEFINITION. The instructions of spec/opcode_table.json, one constructor a row, with their operands
(30_encoding.md R53 to R69) and the names of the refusals (60_exceptions.md R141). -/

namespace Sys2Proof

/-- The electrical mode of the 8 data lines (10_state.md R17). -/
inductive Dir where
  | input
  | output
deriving DecidableEq, Repr, Inhabited

/-- One of the two counter channels (00_scope.md glossary, "axis"). -/
inductive Axis where
  | x
  | y
deriving DecidableEq, Repr, Inhabited

/-- The register class of a target (R56). -/
inductive TargetClass where
  | data
  | command
  | flags
deriving DecidableEq, Repr

/-- The six targets (20_memory.md R35, R36), under their names in the syntax of R36. -/
inductive Target where
  | xd
  | yd
  | xc
  | yc
  | xf
  | yf
deriving DecidableEq, Repr

/-- The four command registers (R63). -/
inductive CommandReg where
  | rld
  | cmr
  | ior
  | idr
deriving DecidableEq, Repr

/-- One constructor for each row of spec/opcode_table.json.

The first three are the operations of a request word (R55). The other eight are the command bytes (R63), one for
each register and each value of the bit `A`; their operand `f` is the flag argument of the encoder function that
builds the byte (41_command_encoder.md R78), a number of any size because the functions take one and refuse what
exceeds 0x1F. -/
inductive Instr where
  | setdir (m : Dir)
  | wrb (t : Target) (d : Byte)
  | rdb (t : Target)
  | rldAxis (f : Nat)
  | rldBase (f : Nat)
  | cmrAxis (f : Nat)
  | cmrBase (f : Nat)
  | iorAxis (f : Nat)
  | iorBase (f : Nat)
  | idrAxis (f : Nat)
  | idrBase (f : Nat)
deriving DecidableEq, Repr

/-- The two formats of the opcode table: a 16-bit request word (R53) and an 8-bit command byte (R62). -/
inductive CodeWord where
  | req (w : ReqWord)
  | cmd (b : Byte)
deriving DecidableEq, Repr

/-- The twelve encoder functions (41_command_encoder.md R79). -/
inductive EncoderFn where
  | reloadX
  | reloadY
  | reload
  | modeControlX
  | modeControlY
  | modeControl
  | ioControlX
  | ioControlY
  | ioControl
  | indexControlX
  | indexControlY
  | indexControl
deriving DecidableEq, Repr

/-- The refusal reasons, the closed list of 60_exceptions.md R141. -/
inductive RefusalReason where
  | reservedOp
  | reservedTarget
  | nonzeroReservedField
  | writeToFlags
  | readFromCommand
  | immediateRange
  | flagsTooWide
  | valueTooWide
  | cursorIllFormed
  | overlap
  | resetMidOperation
deriving DecidableEq, Repr

end Sys2Proof
end

