-- ==== Sys2Proof/Config.lean ====
section
/-! DEFINITION. The named parameters the spec leaves open (00_scope.md R9, 41_command_encoder.md R88), the Encoder
Configuration (43_host_sequences.md R124), the events of a trace (R12, R13), which the bus oracle sees, and the free values. An `opaque` has no body: nothing can be proved of its value. -/

namespace Sys2Proof

/-- The parameters of R9 that a rule reads. `CD_DATA ≠ CD_CTRL` and `XY_X ≠ XY_Y` always hold (92_eei_decisions.md D4),
and a line has two levels, so one level of each pair is stored and the other is its opposite. -/
structure Params where
  /-- `NEUTRAL`, the byte a direction switch sets. -/
  neutral : Byte
  /-- `CD_DATA`. -/
  cdData : Level
  /-- `XY_X`. -/
  xyX : Level
deriving DecidableEq, Repr

/-- `CD_CTRL`. -/
def Params.cdCtrl (p : Params) : Level := p.cdData.flip

/-- `XY_Y`. -/
def Params.xyY (p : Params) : Level := p.xyX.flip

/-- The defaults of R9. PRESUMED for the select lines: the spec marks them general knowledge (log 1). -/
def Params.default : Params := { neutral := 0x00, cdData := .low, xyX := .low }

/-- The 13 lines of the bus (60_exceptions.md R150). -/
inductive BusLine where
  | csN
  | wrN
  | rdN
  | cd
  | xy
  | d (i : Fin 8)
deriving DecidableEq, Repr

/-- The quadrature multiplication setting (00_scope.md glossary; R88 names the non-quadrature value). -/
inductive Quadrature where
  | nonQuad
  | x1
  | x2
  | x4
deriving DecidableEq, Repr

/-- The counting mode: the source names `ModuloN` and leaves the others open (R88, log 18). -/
inductive CounterMode where
  | moduloN
  | other (code : Nat)
deriving DecidableEq, Repr

/-- The Encoder Configuration of one axis (43_host_sequences.md R124). -/
structure EncoderConfig where
  prescaler : Byte
  maxCount : U24
  counterMode : CounterMode
  outputMode : Nat
  quadrature : Quadrature
  indexEnable : Bool
  indexPolarity : Bool
  indexSource : Nat
deriving DecidableEq, Repr

/-- `T_SETTLE_NS` in ns: OPEN (D6, log 2). -/
opaque Config.tSettleNs : Nat

/-- `PIN_MAP`: the port and the pin of each line, OPEN; no rule depends on it (D14, log 2). -/
opaque Config.pinMap : BusLine → Nat × Nat

/-- `IOR_DISABLE` (R88, D18, log 18). Five bits wide because each value is at most 0x1F. -/
opaque Config.iorDisable : BitVec 5

/-- `IOR_ENABLE` (R88). -/
opaque Config.iorEnable : BitVec 5

/-- `IOR_COUNT_BW` (R88). -/
opaque Config.iorCountBw : BitVec 5

/-- `CMR_QDX1` (R88). -/
opaque Config.cmrQdx1 : BitVec 5

/-- `CMR_QDX2` (R88). -/
opaque Config.cmrQdx2 : BitVec 5

/-- `CMR_NONQUAD` (R88). -/
opaque Config.cmrNonQuad : BitVec 5

/-- `CMR_COUNTMODE(mode)` for the modes other than `ModuloN` (R88). -/
opaque Config.cmrCountMode : Nat → BitVec 5

/-- `CMR_OUTMODE(mode)` (R88). -/
opaque Config.cmrOutMode : Nat → BitVec 5

/-- `IDR_FLAGS(cfg)` (R88). -/
opaque Config.idrFlags : EncoderConfig → BitVec 5

/-- `CMR_FLAGS(cfg)` (R88). -/
opaque Config.cmrFlags : EncoderConfig → BitVec 5

namespace Machine

/-- The duration of a wait: the settle delay `T_SETTLE_NS`, kept as a name because its value is open, or `n` ns. -/
inductive Delay where
  | tSettle
  | ns (n : Nat)
deriving DecidableEq, Repr

/-- The lines a `Drive` names (00_scope.md R12); a line not named keeps its level. -/
structure Drive where
  csN : Option Level := none
  wrN : Option Level := none
  rdN : Option Level := none
  cd : Option Level := none
  xy : Option Level := none
deriving DecidableEq, Repr

/-- One event of a trace (R12, R13). -/
inductive Event where
  | busOut (v : Byte)
  | setMode (m : Dir)
  | wait (d : Delay)
  | drive (l : Drive)
  | sample
deriving DecidableEq, Repr

end Machine

/-- The bus oracle of R15: the byte of an open `Sample()`. It sees the trace so far (D33) and is told how many values were
drawn before it (log 6). -/
opaque Config.busOracle : List Machine.Event → Nat → Byte

/-- The n-th byte drawn outside the bus: the result of `RDFLAGS Both` (R114, log 17). -/
opaque Config.freeByte : Nat → Byte

/-- The n-th line level drawn: `CD` and `XY` after a reset event (R153, log 5). -/
opaque Config.freeLevel : Nat → Level

/-- The n-th axis drawn: `CYCLE_AXIS` after a reset event (R153, log 5). -/
opaque Config.freeAxis : Nat → Axis

end Sys2Proof
end

