-- ==== Sys2Proof/Machine/State.lean ====
section
/-! DEFINITION. The machine's state as plain data: the controller's tuple (10_state.md R16), the model-only marks, the
trace, the reference chip when one is attached (48_reference_chip.md R126), and the host's pending inputs. -/

namespace Sys2Proof.Machine

/-- The violation causes, the closed list of 60_exceptions.md R142. -/
inductive Violation where
  | v1
  | v2
  | v3
  | v4
  | v5
deriving DecidableEq, Repr

/-- The lines of the bus as the controller holds them: `DIR`, the five control lines and the data output latch
(10_state.md R17 to R21). -/
structure Pins where
  dir : Dir
  csN : Level
  wrN : Level
  rdN : Level
  cd : Level
  xy : Level
  dout : Byte
deriving DecidableEq, Repr

/-- Three bytes, byte 0 first (20_memory.md R39). -/
structure Bytes3 where
  b0 : Byte
  b1 : Byte
  b2 : Byte
deriving DecidableEq, Repr

/-- The reference chip's state for one axis (48_reference_chip.md R126). -/
structure ChipAxis where
  pr : Bytes3
  cntr : U24
  ol : U24
  bp : Fin 4
  psc : Byte
  cmr : Byte
  ior : Byte
  idr : Byte
  flags : Byte
deriving DecidableEq, Repr

/-- The reference chip (R126), with its test parameter `FLAGS_AFTER_RESET` (R131). -/
structure RefChip where
  x : ChipAxis
  y : ChipAxis
  envFault : Bool
  flagsAfterReset : Byte
deriving DecidableEq, Repr

/-- What can come to the controller from the host, one a step.

`wordDuringOperation` and `resetDuringOperation` are inputs that arrive while the operation before them is in progress
(20_memory.md R47, 70_reset_and_hazards.md R155); since an operation is one step, the input itself says so (log 11). -/
inductive HostInput where
  | word (c : CodeWord)
  | call (fn : EncoderFn) (f : Nat)
  | reset
  | wordDuringOperation (c : CodeWord)
  | resetDuringOperation
  | endOfRun
deriving DecidableEq, Repr

/-- The state of the machine. -/
structure State where
  /-- `DIR`, `CS_n`, `WR_n`, `RD_n`, `CD`, `XY`, `DOUT`. -/
  pins : Pins
  /-- `CURSOR`, stored in 2 bits (R23, R24). -/
  cursor : BitVec 2
  /-- `VIOL` (R27), model-only. -/
  viol : Bool
  /-- `REFUSED` (60_exceptions.md R140), model-only. -/
  refused : Bool
  /-- `CYCLE_AXIS` (R28), model-only. -/
  cycleAxis : Axis
  /-- The causes recorded so far, oldest first (R142). -/
  violations : List Violation
  /-- The refusals recorded so far, oldest first (R140). -/
  refusals : List RefusalReason
  /-- The complete trace, oldest event first (00_scope.md R13, 20_memory.md R47). -/
  trace : List Event
  /-- The byte the last step gave the host, if it gave one (R140). -/
  result : Option Byte
  /-- The reference chip, when a test attaches it; with `none` the bus oracle is open (R15). -/
  chip : Option RefChip
  /-- The host's inputs not yet taken, the next one first. -/
  pending : List HostInput
  /-- How many free values have been drawn. -/
  draws : Nat
  /-- The named parameters (R9). No step writes them. -/
  params : Params
deriving DecidableEq, Repr

/-- The reasons the machine could stop with a fault: none. "The controller raises no exception and records no fault in any
hardware state" (60_exceptions.md R137); what the model refuses is a next state with `REFUSED` set (R140). Safe: nothing
can be proved of a fault that does not exist. -/
inductive Fault where
deriving DecidableEq, Repr

/-- The reasons a step could answer no next state. The refusals the spec names (R141) are `RefusalReason`s recorded in the
state, so only the refusal by name of an instruction without a meaning stands here. -/
inductive Refusal where
  /-- Raised by an arm of `exec` that has no meaning yet; safe. No arm raises it. -/
  | notModelled (mnemonic : String)
deriving DecidableEq, Repr

/-- The chip axis of the launch state of 95_test_vectors.md section 1: all zero. -/
def ChipAxis.launch : ChipAxis :=
  { pr := { b0 := 0, b1 := 0, b2 := 0 }, cntr := 0, ol := 0, bp := 0, psc := 0, cmr := 0, ior := 0, idr := 0, flags := 0 }

/-- The reference chip's launch state of 95_test_vectors.md section 1. -/
def RefChip.launch : RefChip :=
  { x := ChipAxis.launch, y := ChipAxis.launch, envFault := false, flagsAfterReset := 0 }

/-- The state right after reset at launch (70_reset_and_hazards.md R153). `CD`, `XY` and `CYCLE_AXIS` are unspecified
there; their values here are DESIGN CHOICES (logs 3, 4). -/
def State.reset : State :=
  { pins :=
      { dir := .input, csN := .high, wrN := .high, rdN := .high, cd := .low, xy := .low,
        dout := Params.default.neutral }
    cursor := 0
    viol := false
    refused := false
    cycleAxis := .x
    violations := []
    refusals := []
    trace := []
    result := none
    chip := none
    pending := []
    draws := 0
    params := Params.default }

end Sys2Proof.Machine
end

