-- ==== Sys2Proof/Machine/Flags.lean ====
section
/-! DEFINITION. The controller has no flags (10_state.md R31). This file holds the two sticky marks and how they are set:
`VIOL` with its cause (60_exceptions.md R142) and `REFUSED` with its reason (R140). -/

namespace Sys2Proof.Machine

/-- `raise Violation(v)` (00_scope.md R12): the mark is set, the cause recorded, and the operation goes on. -/
def State.raiseViolation (v : Violation) (s : State) : State :=
  { s with viol := true, violations := s.violations ++ [v] }

/-- Raise the violation where its condition holds. -/
def State.violateIf (c : Bool) (v : Violation) (s : State) : State := if c then s.raiseViolation v else s

/-- `raise Refused(r)` (R12, R140): `REFUSED` is set and the reason recorded; there is no trace and no result, and
everything else is unchanged. -/
def State.raiseRefused (r : RefusalReason) (s : State) : State :=
  { s with refused := true, refusals := s.refusals ++ [r], result := none }

/-- `CURSOR` holds one of its legal values (R24). -/
def State.cursorLegal (s : State) : Bool := s.cursor != 3

end Sys2Proof.Machine
end

