-- ==== Sys2Proof/WellFormed.lean ====
section
/-! DEFINITION. Which instruction terms are well formed: the target map's columns `WRB` and `RDB` (20_memory.md R36) and
the width of an encoder's flag argument (41_command_encoder.md R78). -/

namespace Sys2Proof

/-- The column `WRB` of R36: data and command targets. -/
def Target.writable : Target → Bool
  | .xd => true
  | .yd => true
  | .xc => true
  | .yc => true
  | .xf => false
  | .yf => false

/-- The column `RDB` of R36: data and flag targets. -/
def Target.readable : Target → Bool
  | .xd => true
  | .yd => true
  | .xc => false
  | .yc => false
  | .xf => true
  | .yf => true

/-- An encoder's flag argument fits the field `F` (R78). -/
def flagsFit (f : Nat) : Bool := f ≤ 0x1F

/-- What is wrong with an instruction, by the name the spec gives it; `none` for a well-formed one. -/
def Instr.illFormed : Instr → Option RefusalReason
  | .setdir _ => none
  | .wrb t _ => if t.writable then none else some .writeToFlags
  | .rdb t => if t.readable then none else some .readFromCommand
  | .rldAxis f => if flagsFit f then none else some .flagsTooWide
  | .rldBase f => if flagsFit f then none else some .flagsTooWide
  | .cmrAxis f => if flagsFit f then none else some .flagsTooWide
  | .cmrBase f => if flagsFit f then none else some .flagsTooWide
  | .iorAxis f => if flagsFit f then none else some .flagsTooWide
  | .iorBase f => if flagsFit f then none else some .flagsTooWide
  | .idrAxis f => if flagsFit f then none else some .flagsTooWide
  | .idrBase f => if flagsFit f then none else some .flagsTooWide

/-- The instruction is well formed. -/
def Instr.wf (i : Instr) : Bool := i.illFormed.isNone

end Sys2Proof
end

