-- ==== Sys2Proof/Machine/Operands.lean ====
section
/-! DEFINITION. Operand forms: what a target selects (30_encoding.md R61, 20_memory.md R36), the byte order of a 24-bit value
(R39, R40), and the bytes of a three-byte register. -/

namespace Sys2Proof

/-- `axis(t)` of R61. -/
def Target.axis : Target → Axis
  | .xd => .x
  | .yd => .y
  | .xc => .x
  | .yc => .y
  | .xf => .x
  | .yf => .y

/-- `class(t)` of R61. -/
def Target.cls : Target → TargetClass
  | .xd => .data
  | .yd => .data
  | .xc => .command
  | .yc => .command
  | .xf => .flags
  | .yf => .flags

/-- `cd(t)` of R61. -/
def Params.cd (p : Params) (t : Target) : Level := if t.cls = .data then p.cdData else p.cdCtrl

/-- `xy(t)` of R61. -/
def Params.xy (p : Params) (t : Target) : Level := if t.axis = .x then p.xyX else p.xyY

/-- `D(a)` of 43_host_sequences.md R112. -/
def Axis.dataTarget : Axis → Target
  | .x => .xd
  | .y => .yd

/-- `C(a)` of R112. -/
def Axis.commandTarget : Axis → Target
  | .x => .xc
  | .y => .yc

/-- `F(a)` of R112. -/
def Axis.flagTarget : Axis → Target
  | .x => .xf
  | .y => .yf

namespace Machine

/-- `split3` of R40. -/
def split3 (v : U24) : Bytes3 := { b0 := v.extractLsb' 0 8, b1 := v.extractLsb' 8 8, b2 := v.extractLsb' 16 8 }

/-- `join3` of R40. -/
def join3 (b0 b1 b2 : Byte) : U24 := b0.setWidth 24 ||| (b1.setWidth 24 <<< 8) ||| (b2.setWidth 24 <<< 16)

/-- Write byte `k` of a three-byte register; `k` = 3 is past the last byte and writes nothing. -/
def Bytes3.set (r : Bytes3) (k : Fin 4) (b : Byte) : Bytes3 :=
  match k with
  | 0 => { r with b0 := b }
  | 1 => { r with b1 := b }
  | 2 => { r with b2 := b }
  | 3 => r

/-- Byte `k` of a 24-bit register, for `k` = 0, 1, 2; `k` = 3 is past the last byte. -/
def byteOf (v : U24) (k : Fin 4) : Option Byte :=
  match k with
  | 0 => some (v.extractLsb' 0 8)
  | 1 => some (v.extractLsb' 8 8)
  | 2 => some (v.extractLsb' 16 8)
  | 3 => none

/-- The level of data line `Di` while byte `b` is driven on the data lines: the line carries bit `i` (R41). -/
def dataLevel (b : Byte) (i : Fin 8) : Level := Level.ofBool (b.getLsbD i)

/-- The level of a line (10_state.md R22, R41), `env` being the byte the environment drives: the data lines carry `DOUT`
while `DIR` is `Output` and what the environment drives while it is `Input`. -/
def Pins.line (p : Pins) (env : Byte) : BusLine → Level
  | .csN => p.csN
  | .wrN => p.wrN
  | .rdN => p.rdN
  | .cd => p.cd
  | .xy => p.xy
  | .d i => dataLevel (if p.dir = .output then p.dout else env) i

/-- The byte in which a level counts as bit 0. -/
def Level.bit : Level → Byte
  | .low => 0
  | .high => 1

/-- The byte read off the eight data lines: bit `i` is the level of `Di` (R41). -/
def byteOfLines (d : Fin 8 → Level) : Byte :=
  Level.bit (d 0) ||| (Level.bit (d 1) <<< 1) ||| (Level.bit (d 2) <<< 2) ||| (Level.bit (d 3) <<< 3) |||
    (Level.bit (d 4) <<< 4) ||| (Level.bit (d 5) <<< 5) ||| (Level.bit (d 6) <<< 6) ||| (Level.bit (d 7) <<< 7)

end Machine

end Sys2Proof
end

