-- ==== Sys2Proof/Machine/RefChip.lean ====
section
/-! DEFINITION. The reference counter chip (48_reference_chip.md R125 to R136): a bus oracle for tests that reacts to the
controller's events. It is not a specification of the physical chip, and a claim that attaches it says nothing of that. -/

namespace Sys2Proof.Machine

/-! ### One axis -/

/-- The byte pointer moves to the next byte and stays at 3 (R128, R129). -/
def nextByte (k : Fin 4) : Fin 4 :=
  match k with
  | 0 => 1
  | 1 => 2
  | 2 => 3
  | 3 => 3

/-- Data write (R128). -/
def ChipAxis.writeData (b : Byte) (c : ChipAxis) : ChipAxis := { c with pr := c.pr.set c.bp b, bp := nextByte c.bp }

/-- The end of a data read (R129). -/
def ChipAxis.endRead (c : ChipAxis) : ChipAxis := { c with bp := nextByte c.bp }

/-- The transfer that `F[4:3]` selects (R131). -/
def ChipAxis.transfer (k : BitVec 2) (c : ChipAxis) : ChipAxis :=
  match k with
  | 0b00#2 => c
  | 0b01#2 => { c with cntr := join3 c.pr.b0 c.pr.b1 c.pr.b2 }
  | 0b10#2 => { c with ol := c.cntr }
  | _ => { c with psc := c.pr.b0 }

/-- The RLD action (R131), its four parts in order. -/
def ChipAxis.reload (f : BitVec 5) (flagsAfter : Byte) (c : ChipAxis) : ChipAxis :=
  let c := if f.getLsbD 0 then { c with bp := 0 } else c
  let c := if f.getLsbD 1 then { c with cntr := 0 } else c
  let c := if f.getLsbD 2 then { c with flags := flagsAfter } else c
  c.transfer (f.extractLsb' 3 2)

/-- A command write on one axis (R130 to R132). -/
def ChipAxis.command (b : Byte) (flagsAfter : Byte) (c : ChipAxis) : ChipAxis :=
  match b.extractLsb' 5 2 with
  | 0b00#2 => c.reload (b.extractLsb' 0 5) flagsAfter
  | 0b01#2 => { c with cmr := b }
  | 0b10#2 => { c with ior := b }
  | _ => { c with idr := b }

/-! ### The chip -/

/-- The state of one axis. -/
def RefChip.axis (c : RefChip) : Axis → ChipAxis
  | .x => c.x
  | .y => c.y

/-- Change one axis. -/
def RefChip.onAxis (a : Axis) (f : ChipAxis → ChipAxis) (c : RefChip) : RefChip :=
  match a with
  | .x => { c with x := f c.x }
  | .y => { c with y := f c.y }

/-- Set `ENVFAULT` where a condition holds; nothing clears it (R126). -/
def RefChip.faultIf (cond : Bool) (c : RefChip) : RefChip := { c with envFault := c.envFault || cond }

/-- The axis the select line picks (R127). -/
def selectedAxis (p : Params) (l : Pins) : Axis := if l.xy = p.xyX then .x else .y

/-- A data write to axis `a`; a fourth byte sets `ENVFAULT` (R128). -/
def RefChip.writeData (a : Axis) (b : Byte) (c : RefChip) : RefChip :=
  (c.onAxis a (·.writeData b)).faultIf ((c.axis a).bp = 3)

/-- A command write to axis `a`; a byte with `A` = 1 acts on both axes (R130). -/
def RefChip.writeCommand (a : Axis) (b : Byte) (c : RefChip) : RefChip :=
  if b.getLsbD 7 then
    (c.onAxis .x (·.command b c.flagsAfterReset)).onAxis .y (·.command b c.flagsAfterReset)
  else c.onAxis a (·.command b c.flagsAfterReset)

/-- What the chip does with the write it sees on lines `l` (R127). -/
def RefChip.seeWrite (p : Params) (l : Pins) (c : RefChip) : RefChip :=
  if l.cd = p.cdData then c.writeData (selectedAxis p l) l.dout else c.writeCommand (selectedAxis p l) l.dout

/-- What the chip does at the end of the read it sees on lines `l` (R129); a flag read does not move `BP` (R133). -/
def RefChip.seeReadEnd (p : Params) (l : Pins) (c : RefChip) : RefChip :=
  if l.cd = p.cdData then c.onAxis (selectedAxis p l) (·.endRead) else c

/-- A strobe rises while chip-select was low just before (R127, R129). -/
def strobeRises (csBefore before after : Level) : Bool := csBefore = .low && before = .low && after = .high

/-- Chip-select and the read strobe are low, so the chip drives the data lines (R129, R134). -/
def Pins.chipDrives (l : Pins) : Bool := l.csN = .low && l.rdN = .low

/-- The chip's reaction to an event that takes the lines from `old` to `new` (R127, R129, R134). -/
def RefChip.react (p : Params) (old new : Pins) (c : RefChip) : RefChip :=
  let c := if strobeRises old.csN old.wrN new.wrN then c.seeWrite p new else c
  let c := if strobeRises old.csN old.rdN new.rdN then c.seeReadEnd p new else c
  c.faultIf (new.chipDrives && new.dir = .output)

/-- The byte the chip answers to a `Sample()` on lines `l`, and the chip after it (R129, R133). `draw` is the value of a
sample the rules leave free: past the last byte, or while the chip does not drive the lines. -/
def RefChip.answer (p : Params) (l : Pins) (draw : Byte) (c : RefChip) : Byte × RefChip :=
  if l.chipDrives && l.dir = .input then
    if l.cd = p.cdData then
      match byteOf (c.axis (selectedAxis p l)).ol (c.axis (selectedAxis p l)).bp with
      | some b => (b, c)
      | none => (draw, c.faultIf true)
    else ((c.axis (selectedAxis p l)).flags, c)
  else (draw, c)

end Sys2Proof.Machine
end

