-- ==== Sys2Proof/Machine/Ops.lean ====
section
/-! DEFINITION. The operations the meanings are written over: emitting the events of a trace (00_scope.md R12, R13), the
direction switch (40_bus_direction.md R74), the control pattern (42_transaction_engine.md R92), sampling (R15), reset
(70_reset_and_hazards.md R153) and the end of a run (60_exceptions.md R144).

The controller takes no exception and returns from none (R137, R145, R146), so there is no such operation here. -/

namespace Sys2Proof.Machine

/-- The lines after a `Drive` (R12): a line not named keeps its level. -/
def Drive.apply (d : Drive) (l : Pins) : Pins :=
  { l with
    csN := d.csN.getD l.csN, wrN := d.wrN.getD l.wrN, rdN := d.rdN.getD l.rdN, cd := d.cd.getD l.cd,
    xy := d.xy.getD l.xy }

/-- The lines after an event (R12). -/
def Event.apply (e : Event) (l : Pins) : Pins :=
  match e with
  | .busOut v => { l with dout := v }
  | .setMode m => { l with dir := m }
  | .wait _ => l
  | .drive d => d.apply l
  | .sample => l

/-- Emit one event: the lines change at once (20_memory.md R51), the event is recorded, and an attached chip reacts. -/
def State.emit (e : Event) (s : State) : State :=
  { s with
    pins := e.apply s.pins, trace := s.trace ++ [e], chip := s.chip.map (·.react s.params s.pins (e.apply s.pins)) }

/-- Emit events in order. -/
def State.emitAll : List Event → State → State
  | [], s => s
  | e :: es, s => (s.emit e).emitAll es

/-- The lines after a run of events. -/
def replay (l : Pins) : List Event → Pins
  | [] => l
  | e :: es => replay (e.apply l) es

/-- What the last step gave the host (60_exceptions.md R140). -/
def State.deliver (r : Option Byte) (s : State) : State := { s with result := r }

/-- `DirSwitch(m)` of R74. -/
def dirSwitch (p : Params) (m : Dir) : List Event := [.busOut p.neutral, .setMode m, .wait .tSettle]

/-- `Pattern(t)` of R92. -/
def pattern (p : Params) (t : Target) : Event := .drive { cd := some (p.cd t), xy := some (p.xy t) }

/-- The next draw from the bus oracle, which sees the trace so far (R15). -/
def State.draw (s : State) : Byte := Config.busOracle s.trace s.draws

/-- `Sample()` (R12, R15): the byte read off the data lines, bit `i` from line `Di` (20_memory.md R41), while the environment
drives them. The environment is the reference chip when one is attached (48_reference_chip.md R129, R133) and otherwise
the bus oracle. -/
def State.sample (s : State) : Byte × State :=
  let s' := { s.emit .sample with draws := s.draws + 1 }
  match s'.chip with
  | none => (byteOfLines (dataLevel s.draw), s')
  | some c =>
    let r := c.answer s.params s.pins s.draw
    (byteOfLines (dataLevel r.1), { s' with chip := some r.2 })

/-- Run an operation on a state whose `CURSOR` is legal; with `CURSOR` = 3 it has no meaning and is refused
(10_state.md R24). -/
def State.operate (f : State → State) (s : State) : State :=
  if s.cursorLegal then f s else s.raiseRefused .cursorIllFormed

/-- The reset event (R153, R154): back to idle from any state. `CD`, `XY` and `CYCLE_AXIS` are unspecified and take free
values; `VIOL`, `REFUSED` and what was recorded stay; no event is emitted, and the counter chip is not reset. -/
def State.resetEvent (s : State) : State :=
  { s with
    pins :=
      { dir := .input, csN := .high, wrN := .high, rdN := .high, cd := Config.freeLevel s.draws,
        xy := Config.freeLevel (s.draws + 1), dout := s.params.neutral }
    cursor := 0
    cycleAxis := Config.freeAxis (s.draws + 2)
    result := none
    draws := s.draws + 3 }

/-- The end of the run (60_exceptions.md R144): in the middle of a read cycle it sets `V5`. Nothing follows it. -/
def State.endRun (s : State) : State :=
  { s.violateIf (s.cursor != 0) .v5 with pending := [], result := none }

end Sys2Proof.Machine
end

