-- ==== Sys2Proof/Machine/BusDirection.lean ====
section
/-! DEFINITION. The Bus Direction Controller: `SETDIR` (40_bus_direction.md R73 to R77). -/

namespace Sys2Proof.Machine

/-- `SETDIR(m)` of R73 on a legal state; issued in the middle of a read cycle it is violation `V4` (R77). -/
def setDirection (m : Dir) (s : State) : State :=
  ((s.violateIf (s.cursor != 0) .v4).emitAll (dirSwitch s.params m)).deliver none

/-- `SETDIR m` (R73). -/
def execSetdir (m : Dir) (s : State) : Host.Outcome State Fault Refusal := .next (s.operate (setDirection m))

end Sys2Proof.Machine
end

