-- ==== Sys2Proof/Machine/Encoder.lean ====
section
/-! DEFINITION. The Register Command Encoder (41_command_encoder.md R78 to R90): the twelve functions, the flag constants the
source gives, and the meanings of the eight command-byte rows. A row's byte is the host's result; it reaches the counter
chip only as the data of a `WRB XC` or `WRB YC` (log 10). -/

namespace Sys2Proof.Machine

/-! ### Flag constants (R85, R87) -/

/-- `RBP`, reset-byte-pointer. -/
def rbp : Nat := 0x01

/-- `RCNTR`, reset-counter. -/
def rcntr : Nat := 0x02

/-- `RFLG`, reset-flags. -/
def rflg : Nat := 0x04

/-- `XFER_PR_TO_CNTR`, transfer-preset-to-counter. -/
def xferPrToCntr : Nat := 0x08

/-- `XFER_CNTR_TO_OL`, transfer-counter-to-latch. -/
def xferCntrToOl : Nat := 0x10

/-- `XFER_PSC`, transfer-prescale-to-scale. -/
def xferPsc : Nat := 0x18

/-- `ModuloN`. -/
def moduloN : Nat := 0x06

/-- `QDX4`. -/
def qdx4 : Nat := 0x18

/-! ### The functions (R79) -/

/-- `enc(f) = M | f`, refused when `f` exceeds 0x1F (R78). -/
def encodeFlags (m : Byte) (f : Nat) : Except RefusalReason Byte :=
  if f > 0x1F then .error .flagsTooWide else .ok (m ||| BitVec.ofNat 8 f)

/-- R80. -/
def reloadX (f : Nat) : Except RefusalReason Byte := encodeFlags 0x00 f

/-- R80. -/
def reloadY (f : Nat) : Except RefusalReason Byte := encodeFlags 0x00 f

/-- R80. -/
def reload (f : Nat) : Except RefusalReason Byte := encodeFlags 0x80 f

/-- R81. -/
def modeControlX (f : Nat) : Except RefusalReason Byte := encodeFlags 0x20 f

/-- R81. -/
def modeControlY (f : Nat) : Except RefusalReason Byte := encodeFlags 0x20 f

/-- R81. -/
def modeControl (f : Nat) : Except RefusalReason Byte := encodeFlags 0xA0 f

/-- R82. -/
def ioControlX (f : Nat) : Except RefusalReason Byte := encodeFlags 0x40 f

/-- R82. -/
def ioControlY (f : Nat) : Except RefusalReason Byte := encodeFlags 0x40 f

/-- R82. -/
def ioControl (f : Nat) : Except RefusalReason Byte := encodeFlags 0xC0 f

/-- R83. -/
def indexControlX (f : Nat) : Except RefusalReason Byte := encodeFlags 0x60 f

/-- R83. -/
def indexControlY (f : Nat) : Except RefusalReason Byte := encodeFlags 0x60 f

/-- R83. -/
def indexControl (f : Nat) : Except RefusalReason Byte := encodeFlags 0xE0 f

/-- The function a name stands for (R79). -/
def applyFn : EncoderFn → Nat → Except RefusalReason Byte
  | .reloadX => reloadX
  | .reloadY => reloadY
  | .reload => reload
  | .modeControlX => modeControlX
  | .modeControlY => modeControlY
  | .modeControl => modeControl
  | .ioControlX => ioControlX
  | .ioControlY => ioControlY
  | .ioControl => ioControl
  | .indexControlX => indexControlX
  | .indexControlY => indexControlY
  | .indexControl => indexControl

/-- The row of the opcode table that a function builds; the X and the Y function of a register build the same byte (R84). -/
def fnInstr : EncoderFn → Nat → Instr
  | .reloadX => .rldAxis
  | .reloadY => .rldAxis
  | .reload => .rldBase
  | .modeControlX => .cmrAxis
  | .modeControlY => .cmrAxis
  | .modeControl => .cmrBase
  | .ioControlX => .iorAxis
  | .ioControlY => .iorAxis
  | .ioControl => .iorBase
  | .indexControlX => .idrAxis
  | .indexControlY => .idrAxis
  | .indexControl => .idrBase

/-! ### The meanings -/

/-- Give the host what an encoder function returns; no controller state is read or written (R78). -/
def State.answerEncoder (r : Except RefusalReason Byte) (s : State) : State :=
  match r with
  | .ok b => s.deliver (some b)
  | .error e => s.raiseRefused e

/-- `RLD.axis` (R80): `reloadX`, `reloadY`. -/
def execRldAxis (f : Nat) (s : State) : Host.Outcome State Fault Refusal := .next (s.answerEncoder (reloadX f))

/-- `RLD.base` (R80): `reload`. -/
def execRldBase (f : Nat) (s : State) : Host.Outcome State Fault Refusal := .next (s.answerEncoder (reload f))

/-- `CMR.axis` (R81): `modeControlX`, `modeControlY`. -/
def execCmrAxis (f : Nat) (s : State) : Host.Outcome State Fault Refusal := .next (s.answerEncoder (modeControlX f))

/-- `CMR.base` (R81): `modeControl`. -/
def execCmrBase (f : Nat) (s : State) : Host.Outcome State Fault Refusal := .next (s.answerEncoder (modeControl f))

/-- `IOR.axis` (R82): `ioControlX`, `ioControlY`. -/
def execIorAxis (f : Nat) (s : State) : Host.Outcome State Fault Refusal := .next (s.answerEncoder (ioControlX f))

/-- `IOR.base` (R82): `ioControl`. -/
def execIorBase (f : Nat) (s : State) : Host.Outcome State Fault Refusal := .next (s.answerEncoder (ioControl f))

/-- `IDR.axis` (R83): `indexControlX`, `indexControlY`. -/
def execIdrAxis (f : Nat) (s : State) : Host.Outcome State Fault Refusal := .next (s.answerEncoder (indexControlX f))

/-- `IDR.base` (R83): `indexControl`. -/
def execIdrBase (f : Nat) (s : State) : Host.Outcome State Fault Refusal := .next (s.answerEncoder (indexControl f))

end Sys2Proof.Machine
end

