-- ==== Sys2Proof/Machine/Transaction.lean ====
section
/-! DEFINITION. The Transaction Engine: `WRB` and `RDB` with the read-cycle cursor (42_transaction_engine.md R91 to R110). -/

namespace Sys2Proof.Machine

/-! ### writeByte -/

/-- The nine events of `WRB t, d` (R94). -/
def writeTrace (p : Params) (t : Target) (d : Byte) : List Event :=
  dirSwitch p .output ++
    [ .drive { csN := some .high, wrN := some .high, rdN := some .high },
      pattern p t,
      .busOut d,
      .drive { csN := some .low, wrN := some .low },
      .wait (.ns 45),
      .drive { csN := some .high, wrN := some .high } ]

/-- `WRB(t, d)` of R93 on a legal state; in the middle of a read cycle it is violation `V1` (R96). -/
def writeByte (t : Target) (d : Byte) (s : State) : State :=
  ((s.violateIf (s.cursor != 0) .v1).emitAll (writeTrace s.params t d)).deliver none

/-- `WRB t, d` (R93); a write to a flags target has no meaning (20_memory.md R45). -/
def execWrb (t : Target) (d : Byte) (s : State) : Host.Outcome State Fault Refusal :=
  if t.writable then .next (s.operate (writeByte t d)) else .next (s.raiseRefused .writeToFlags)

/-! ### readByte -/

/-- `CheckCycle(t)` of R104. -/
def checkCycle (t : Target) (s : State) : State :=
  if t.cls = .data then
    if s.cursor = 0 then { s with cycleAxis := t.axis } else s.violateIf (t.axis != s.cycleAxis) .v2
  else s.violateIf (s.cursor != 0) .v3

/-- Events 1 to 6 of `RDB t` (R99). -/
def readOpening (p : Params) (t : Target) : List Event :=
  dirSwitch p .input ++ [pattern p t, .drive { csN := some .low, rdN := some .low }, .wait (.ns 80)]

/-- The closure that raises chip-select and the read strobe together (R101). -/
def fullClosure : Event := .drive { csN := some .high, rdN := some .high }

/-- The closure that raises only the read strobe and leaves chip-select asserted (R101). -/
def partialClosure : Event := .drive { rdN := some .high }

/-- `Close(t)` of R101: event 8 of `RDB`, with the cursor update at the same instant. -/
def close (t : Target) (s : State) : State :=
  if t.cls = .flags then s.emit fullClosure
  else if s.cursor = 2 then { s.emit fullClosure with cursor := 0 }
  else { s.emit partialClosure with cursor := s.cursor + 1 }

/-- `RDB(t)` of R98 on a legal state. -/
def readByte (t : Target) (s : State) : State :=
  let r := ((checkCycle t s).emitAll (readOpening s.params t)).sample
  ((close t r.2).emit (.wait (.ns 90))).deliver (some r.1)

/-- `RDB t` (R98); a read from a command target has no meaning (20_memory.md R45). -/
def execRdb (t : Target) (s : State) : Host.Outcome State Fault Refusal :=
  if t.readable then .next (s.operate (readByte t)) else .next (s.raiseRefused .readFromCommand)

end Sys2Proof.Machine
end

