-- ==== Sys2Proof/Machine/Dispatch.lean ====
section
/-! DEFINITION. One arm for each constructor of Instr. -/

namespace Sys2Proof.Machine

/-- What an instruction does. -/
def exec (i : Instr) (s : State) : Host.Outcome State Fault Refusal :=
  match i with
  | .setdir m => Sys2Proof.Machine.execSetdir m s
  | .wrb t d => Sys2Proof.Machine.execWrb t d s
  | .rdb t => Sys2Proof.Machine.execRdb t s
  | .rldAxis f => Sys2Proof.Machine.execRldAxis f s
  | .rldBase f => Sys2Proof.Machine.execRldBase f s
  | .cmrAxis f => Sys2Proof.Machine.execCmrAxis f s
  | .cmrBase f => Sys2Proof.Machine.execCmrBase f s
  | .iorAxis f => Sys2Proof.Machine.execIorAxis f s
  | .iorBase f => Sys2Proof.Machine.execIorBase f s
  | .idrAxis f => Sys2Proof.Machine.execIdrAxis f s
  | .idrBase f => Sys2Proof.Machine.execIdrBase f s

end Sys2Proof.Machine
end

