-- ==== Sys2Proof/Decode.lean ====
section
/-! DEFINITION. The decoder, total over both formats (30_encoding.md R54 to R63), and after it the encoder, written from
the same tables. -/

namespace Sys2Proof

/-! ### The fields of a request word (R54) -/

/-- `OP`, bits 15:13. -/
def ReqWord.op (w : ReqWord) : BitVec 3 := w.extractLsb' 13 3

/-- `TGT`, bits 12:10. -/
def ReqWord.tgt (w : ReqWord) : BitVec 3 := w.extractLsb' 10 3

/-- `RSV`, bit 9. -/
def ReqWord.rsv (w : ReqWord) : BitVec 1 := w.extractLsb' 9 1

/-- `MODE`, bit 8. -/
def ReqWord.mode (w : ReqWord) : BitVec 1 := w.extractLsb' 8 1

/-- `DATA`, bits 7:0. -/
def ReqWord.data (w : ReqWord) : Byte := w.extractLsb' 0 8

/-! ### The fields of a command byte (R62) -/

/-- `A`, bit 7. -/
def cmdA (b : Byte) : BitVec 1 := b.extractLsb' 7 1

/-- `SEL`, bits 6:5. -/
def cmdSel (b : Byte) : BitVec 2 := b.extractLsb' 5 2

/-- `F`, bits 4:0. -/
def cmdF (b : Byte) : BitVec 5 := b.extractLsb' 0 5

/-! ### Decoding -/

/-- The target a code names (R56); `110` and `111` are reserved. -/
def decodeTarget (c : BitVec 3) : Option Target :=
  match c with
  | 0b000#3 => some .xd
  | 0b001#3 => some .yd
  | 0b010#3 => some .xc
  | 0b011#3 => some .yc
  | 0b100#3 => some .xf
  | 0b101#3 => some .yf
  | _ => none

/-- The direction a `MODE` bit names (R54). -/
def decodeMode (m : BitVec 1) : Dir := if m = 0 then .input else .output

/-- The branch of R58 for `OP` = 001, after the reserved targets. -/
def decodeWrb (t : Target) (w : ReqWord) : Except RefusalReason Instr :=
  if w.tgt.extractLsb' 1 2 = 0b10#2 then .error .writeToFlags
  else if w.rsv ≠ 0 ∨ w.mode ≠ 0 then .error .nonzeroReservedField
  else .ok (.wrb t w.data)

/-- The branch of R58 for `OP` = 010, after the reserved targets. -/
def decodeRdb (t : Target) (w : ReqWord) : Except RefusalReason Instr :=
  if w.tgt.extractLsb' 1 2 = 0b01#2 then .error .readFromCommand
  else if w.rsv ≠ 0 ∨ w.mode ≠ 0 ∨ w.data ≠ 0 then .error .nonzeroReservedField
  else .ok (.rdb t)

/-- `decode` of R58, its checks in its order. -/
def decodeRequest (w : ReqWord) : Except RefusalReason Instr :=
  if w.op ≠ 0b000#3 ∧ w.op ≠ 0b001#3 ∧ w.op ≠ 0b010#3 then .error .reservedOp
  else if w.op = 0b000#3 then
    if w.tgt ≠ 0 ∨ w.rsv ≠ 0 ∨ w.data ≠ 0 then .error .nonzeroReservedField
    else .ok (.setdir (decodeMode w.mode))
  else
    match decodeTarget w.tgt with
    | none => .error .reservedTarget
    | some t => if w.op = 0b001#3 then decodeWrb t w else decodeRdb t w

/-- The register a selector names (R63). -/
def decodeSel (s : BitVec 2) : CommandReg :=
  match s with
  | 0b00#2 => .rld
  | 0b01#2 => .cmr
  | 0b10#2 => .ior
  | _ => .idr

/-- The row of the opcode table a command byte belongs to, with its flag bits (R62, R63). Every byte is well formed
(R68), so nothing is refused. -/
def decodeCommand (b : Byte) : Instr :=
  match decodeSel (cmdSel b) with
  | .rld => if cmdA b = 0 then .rldAxis (cmdF b).toNat else .rldBase (cmdF b).toNat
  | .cmr => if cmdA b = 0 then .cmrAxis (cmdF b).toNat else .cmrBase (cmdF b).toNat
  | .ior => if cmdA b = 0 then .iorAxis (cmdF b).toNat else .iorBase (cmdF b).toNat
  | .idr => if cmdA b = 0 then .idrAxis (cmdF b).toNat else .idrBase (cmdF b).toNat

/-- The decoder over both formats of the opcode table: an instruction, or the name of the refusal. -/
def decode : CodeWord → Except RefusalReason Instr
  | .req w => decodeRequest w
  | .cmd b => .ok (decodeCommand b)

/-! ### Encoding -/

/-- The code of a target (R56). -/
def Target.code : Target → BitVec 3
  | .xd => 0b000
  | .yd => 0b001
  | .xc => 0b010
  | .yc => 0b011
  | .xf => 0b100
  | .yf => 0b101

/-- The `MODE` bit of a direction (R54). -/
def Dir.mode : Dir → BitVec 1
  | .input => 0
  | .output => 1

/-- The selector of a command register (R63). -/
def CommandReg.sel : CommandReg → BitVec 2
  | .rld => 0b00
  | .cmr => 0b01
  | .ior => 0b10
  | .idr => 0b11

/-- A request word from its fields (R54). -/
def requestWord (op tgt : BitVec 3) (rsv mode : BitVec 1) (data : Byte) : ReqWord := op ++ tgt ++ rsv ++ mode ++ data

/-- A command byte from its fields (R62). -/
def commandByte (a : BitVec 1) (r : CommandReg) (f : BitVec 5) : Byte := a ++ r.sel ++ f

/-- The word of a well-formed instruction. Of an ill-formed flag argument it keeps the low five bits. -/
def encode : Instr → CodeWord
  | .setdir m => .req (requestWord 0b000 0b000 0 m.mode 0)
  | .wrb t d => .req (requestWord 0b001 t.code 0 0 d)
  | .rdb t => .req (requestWord 0b010 t.code 0 0 0)
  | .rldAxis f => .cmd (commandByte 0 .rld (BitVec.ofNat 5 f))
  | .rldBase f => .cmd (commandByte 1 .rld (BitVec.ofNat 5 f))
  | .cmrAxis f => .cmd (commandByte 0 .cmr (BitVec.ofNat 5 f))
  | .cmrBase f => .cmd (commandByte 1 .cmr (BitVec.ofNat 5 f))
  | .iorAxis f => .cmd (commandByte 0 .ior (BitVec.ofNat 5 f))
  | .iorBase f => .cmd (commandByte 1 .ior (BitVec.ofNat 5 f))
  | .idrAxis f => .cmd (commandByte 0 .idr (BitVec.ofNat 5 f))
  | .idrBase f => .cmd (commandByte 1 .idr (BitVec.ofNat 5 f))

/-- The word an opcode-table row of `nbits` bits stands for: a CMD8 row has 8, a REQ16 row has 16 (R60: no other
length exists). -/
def tableWord (nbits w : Nat) : CodeWord :=
  if nbits ≤ 8 then .cmd (BitVec.ofNat 8 w) else .req (BitVec.ofNat 16 w)

/-- The instruction the decoder reads from the word of an opcode-table row. -/
def decodeTableWord (nbits w : Nat) : Option Instr :=
  match decode (tableWord nbits w) with
  | .ok i => some i
  | .error _ => none

end Sys2Proof
end

