-- ==== Sys2Proof/Machine/Fetch.lean ====
section
/-! DEFINITION. Taking the host's next input (10_state.md R20: the controller fetches no instructions; the host issues one
operation at a time, 20_memory.md R47). -/

namespace Sys2Proof.Machine

/-- What taking an input comes to: an instruction to run on a state, or a state in which the step is already done. -/
inductive Taken where
  | run (i : Instr) (s : State)
  | done (s : State)
deriving DecidableEq, Repr

/-- What one input asks for.

A word is decoded and run, or refused by the name R58 gives. An input that arrives while an operation is in progress is
refused (`Overlap`, R47; `ResetMidOperation`, 70_reset_and_hazards.md R155). -/
def serve : HostInput → State → Taken
  | .word c, s =>
    match decode c with
    | .ok i => .run i s
    | .error r => .done (s.raiseRefused r)
  | .call fn f, s => .run (fnInstr fn f) s
  | .reset, s => .done s.resetEvent
  | .wordDuringOperation _, s => .done (s.raiseRefused .overlap)
  | .resetDuringOperation, s => .done (s.raiseRefused .resetMidOperation)
  | .endOfRun, s => .done s.endRun

/-- Take the next input. With none, the controller waits (R153). A state with `CURSOR` = 3 is refused whatever the
input (10_state.md R24). -/
def take (s : State) : Taken :=
  match s.pending with
  | [] => .done s
  | inp :: rest =>
    if s.cursorLegal then serve inp { s with pending := rest }
    else .done ({ s with pending := rest }.raiseRefused .cursorIllFormed)

end Sys2Proof.Machine
end

