-- ==== Sys2Proof/Machine/Step.lean ====
section
/-! DEFINITION. One step of the machine: take one host input and do what it asks (60_exceptions.md R140). -/

namespace Sys2Proof.Machine

/-- One step. -/
def step (s : State) : Host.Outcome State Fault Refusal :=
  match take s with
  | .run i s' => exec i s'
  | .done s' => .next s'

/-- `s` with the word of an opcode-table row as the next input the step takes. -/
def State.withFetchWord (s : State) (nbits w : Nat) : State :=
  { s with pending := .word (tableWord nbits w) :: s.pending }

end Sys2Proof.Machine
end

