-- ==== Sys2Proof/Machine/HostSequences.lean ====
section
/-! DEFINITION. The Encoder Session (43_host_sequences.md R111 to R124): host software, not part of the controller. Each
sequence is given as the operations it expands into and as a run of those operations with the host's own computation. -/

namespace Sys2Proof.Machine

/-- The axis selector (R112). -/
inductive Selector where
  | x
  | y
  | both
deriving DecidableEq, Repr

/-! ### Expansions -/

/-- A write to a list of (target, byte) pairs, one `WRB` each. -/
def writes (l : List (Target × Byte)) : List Instr := l.map fun p => .wrb p.1 p.2

/-- `WRPRESET a, v` on one axis (R116): reset the byte pointer, then write the low byte. -/
def wrPresetWrites (a : Axis) (v : Nat) : List (Target × Byte) :=
  [(a.commandTarget, 0x01), (a.dataTarget, BitVec.ofNat 8 v)]

/-- `WRPRESET` (R116); `Both` is X and then Y. -/
def wrPresetOps (sel : Selector) (v : Nat) : List Instr :=
  match sel with
  | .x => writes (wrPresetWrites .x v)
  | .y => writes (wrPresetWrites .y v)
  | .both => writes (wrPresetWrites .x v ++ wrPresetWrites .y v)

/-- `RDLATCH a` on one axis (R113): latch, then three reads of the data target. -/
def rdLatchAxisOps (a : Axis) : List Instr :=
  [.wrb a.commandTarget 0x11, .rdb a.dataTarget, .rdb a.dataTarget, .rdb a.dataTarget]

/-- `RDLATCH` (R113, R114): `Both` issues no operation. -/
def rdLatchOps : Selector → List Instr
  | .x => rdLatchAxisOps .x
  | .y => rdLatchAxisOps .y
  | .both => []

/-- `RDFLAGS` (R114, R115): `Both` issues no operation. -/
def rdFlagsOps : Selector → List Instr
  | .x => [.rdb .xf]
  | .y => [.rdb .yf]
  | .both => []

/-- The load half of `SETCNT a, v` (R118): the preset bytes, low byte first, and the transfer to the counter. -/
def setCntWrites (a : Axis) (v : U24) : List (Target × Byte) :=
  [ (a.commandTarget, 0x01),
    (a.dataTarget, (split3 v).b0),
    (a.dataTarget, (split3 v).b1),
    (a.dataTarget, (split3 v).b2),
    (a.commandTarget, 0x08) ]

/-- `SETCNT a, v` on one axis (R118). -/
def setCntAxisOps (a : Axis) (v : U24) : List Instr := writes (setCntWrites a v) ++ rdLatchAxisOps a

/-- `SETCNT` of a value that fits (R118, R119): `Both` is X and then Y. -/
def setCntFitsOps (sel : Selector) (v : U24) : List Instr :=
  match sel with
  | .x => setCntAxisOps .x v
  | .y => setCntAxisOps .y v
  | .both => setCntAxisOps .x v ++ setCntAxisOps .y v

/-- `SETCNT` (R118): a value of 2^24 or more issues no operation. -/
def setCntOps (sel : Selector) (v : Nat) : List Instr :=
  if v < 2 ^ 24 then setCntFitsOps sel (BitVec.ofNat 24 v) else []

/-- What `INIT` sends for one axis: the configuration with its open flag values filled in. -/
structure AxisProgram where
  prescaler : Byte
  maxCount : U24
  idrFlags : BitVec 5
  cmrFlags : BitVec 5
deriving DecidableEq, Repr

/-- The program of a configuration (R124); `IDR_FLAGS` and `CMR_FLAGS` are open (41_command_encoder.md R88). -/
def axisProgram (c : EncoderConfig) : AxisProgram :=
  { prescaler := c.prescaler, maxCount := c.maxCount, idrFlags := Config.idrFlags c, cmrFlags := Config.cmrFlags c }

/-- A per-axis command byte: the mask of the register with five flag bits (R79). -/
def axisCommand (mask : Byte) (f : BitVec 5) : Byte := mask ||| f.setWidth 8

/-- Phase B of `INIT` for one axis (R121). -/
def initAxisWrites (a : Axis) (c : AxisProgram) : List (Target × Byte) :=
  [ (a.commandTarget, 0x05),
    (a.dataTarget, c.prescaler),
    (a.commandTarget, 0x18),
    (a.commandTarget, 0x03),
    (a.commandTarget, axisCommand 0x60 c.idrFlags),
    (a.commandTarget, axisCommand 0x20 c.cmrFlags),
    (a.dataTarget, (split3 c.maxCount).b0),
    (a.dataTarget, (split3 c.maxCount).b1),
    (a.dataTarget, (split3 c.maxCount).b2) ]

/-- The 22 writes of `INIT` (R121), for given values of `IOR_DISABLE` and `IOR_ENABLE`. -/
def initWrites (disable enable : BitVec 5) (x y : AxisProgram) : List (Target × Byte) :=
  [(.xc, axisCommand 0x40 disable), (.yc, axisCommand 0x40 disable)] ++
    initAxisWrites .x x ++ initAxisWrites .y y ++
    [(.xc, axisCommand 0x40 enable), (.yc, axisCommand 0x40 enable)]

/-- `INIT cfgX, cfgY` (R121). -/
def initOps (cfgX cfgY : EncoderConfig) : List Instr :=
  writes (initWrites Config.iorDisable Config.iorEnable (axisProgram cfgX) (axisProgram cfgY))

/-- The request words of an expansion. -/
def wordsOf (is : List Instr) : List CodeWord := is.map encode

/-! ### Runs -/

/-- Issue one operation and wait for it to complete (R111). -/
def issue (i : Instr) (s : State) : State :=
  match exec i s with
  | .next t => t
  | .fault _ => s
  | .refused _ => s

/-- Issue operations in order. -/
def issueAll : List Instr → State → State
  | [], s => s
  | i :: is, s => issueAll is (issue i s)

/-- `join3` of three results; no value if a read was refused and gave none. -/
def joinResults (b0 b1 b2 : Option Byte) : Option U24 :=
  match b0, b1, b2 with
  | some b0, some b1, some b2 => some (join3 b0 b1 b2)
  | _, _, _ => none

/-- `RDLATCH a` on one axis (R113). -/
def rdLatchAxis (a : Axis) (s : State) : Option U24 × State :=
  let s0 := issue (.wrb a.commandTarget 0x11) s
  let s1 := issue (.rdb a.dataTarget) s0
  let s2 := issue (.rdb a.dataTarget) s1
  let s3 := issue (.rdb a.dataTarget) s2
  (joinResults s1.result s2.result s3.result, s3)

/-- `RDLATCH` (R113, R114): `Both` returns 0 and touches nothing. -/
def rdLatch (sel : Selector) (s : State) : Option U24 × State :=
  match sel with
  | .x => rdLatchAxis .x s
  | .y => rdLatchAxis .y s
  | .both => (some 0, s)

/-- `RDFLAGS a` on one axis (R115). -/
def rdFlagsAxis (a : Axis) (s : State) : Option Byte × State :=
  let t := issue (.rdb a.flagTarget) s
  (t.result, t)

/-- `RDFLAGS` (R114, R115): `Both` touches nothing and returns a free byte. -/
def rdFlags (sel : Selector) (s : State) : Option Byte × State :=
  match sel with
  | .x => rdFlagsAxis .x s
  | .y => rdFlagsAxis .y s
  | .both => (some (Config.freeByte s.draws), { s with draws := s.draws + 1 })

/-- `WRPRESET` (R116). -/
def wrPreset (sel : Selector) (v : Nat) (s : State) : State := issueAll (wrPresetOps sel v) s

/-- `SETCNT a, v` on one axis (R118): load, transfer, read back and compare. -/
def setCntAxis (a : Axis) (v : U24) (s : State) : Option Bool × State :=
  let r := rdLatchAxis a (issueAll (writes (setCntWrites a v)) s)
  (r.1.map (· = v), r.2)

/-- The AND of two results (R119); no value if either read-back was refused. -/
def andResults (p q : Option Bool) : Option Bool :=
  match p, q with
  | some p, some q => some (p && q)
  | _, _ => none

/-- `SETCNT` of a value that fits (R118, R119): `Both` is X and then Y. -/
def setCntFits (sel : Selector) (v : U24) (s : State) : Option Bool × State :=
  match sel with
  | .x => setCntAxis .x v s
  | .y => setCntAxis .y v s
  | .both =>
    let rx := setCntAxis .x v s
    let ry := setCntAxis .y v rx.2
    (andResults rx.1 ry.1, ry.2)

/-- `SETCNT` (R118, R119); a value of 2^24 or more is refused. -/
def setCnt (sel : Selector) (v : Nat) (s : State) : Option Bool × State :=
  if v < 2 ^ 24 then setCntFits sel (BitVec.ofNat 24 v) s else (none, s.raiseRefused .valueTooWide)

/-- `INIT cfgX, cfgY` (R121, R122): success, always. -/
def initSession (cfgX cfgY : EncoderConfig) (s : State) : Bool × State := (true, issueAll (initOps cfgX cfgY) s)

end Sys2Proof.Machine
end

