-- ==== Sys2Proof/Machine/Assembler.lean ====
section
/-! DEFINITION. The assembly syntax (30_encoding.md R70) and the pseudo-instructions that have one (R71): a line becomes the
request words it stands for. -/

namespace Sys2Proof.Machine

/-- What a line comes to: the words it stands for, a refusal the spec names, or a line the syntax does not have (log 19). -/
inductive Assembled where
  | words (ws : List CodeWord)
  | refused (r : RefusalReason)
  | notInSyntax
deriving DecidableEq, Repr

/-! ### Characters and tokens -/

/-- Lower case of an ASCII letter: mnemonics and target names are case-insensitive (R70). -/
def lowerChar (c : Char) : Char := if 'A' ≤ c ∧ c ≤ 'Z' then Char.ofNat (c.toNat + 32) else c

/-- A blank between words. -/
def isBlank (c : Char) : Bool := c = ' ' || c = '\t'

/-- The line without its comment: `;` begins a comment (R70). -/
def dropComment : List Char → List Char
  | [] => []
  | c :: cs => if c = ';' then [] else c :: dropComment cs

/-- Cut a line into words at blanks and commas, a comma being a word of its own. `cur` holds the word read so far,
reversed. -/
def tokensFrom (cur : List Char) : List Char → List (List Char)
  | [] => if cur.isEmpty then [] else [cur.reverse]
  | c :: cs =>
    if isBlank c then (if cur.isEmpty then [] else [cur.reverse]) ++ tokensFrom [] cs
    else if c = ',' then (if cur.isEmpty then [] else [cur.reverse]) ++ [','] :: tokensFrom [] cs
    else tokensFrom (lowerChar c :: cur) cs

/-- The words of a line, in lower case, without its comment. -/
def tokens (line : String) : List String := (tokensFrom [] (dropComment line.toList)).map String.ofList

/-! ### Immediates -/

/-- The value of a decimal digit. -/
def decDigit (c : Char) : Option Nat := if '0' ≤ c ∧ c ≤ '9' then some (c.toNat - 48) else none

/-- The value of a lower-case hexadecimal digit. -/
def hexDigit (c : Char) : Option Nat :=
  if '0' ≤ c ∧ c ≤ '9' then some (c.toNat - 48)
  else if 'a' ≤ c ∧ c ≤ 'f' then some (c.toNat - 87)
  else none

/-- The number a list of digits spells in a base, `acc` being the value of the digits before them. -/
def digits (base : Nat) (digit : Char → Option Nat) (acc : Nat) : List Char → Option Nat
  | [] => some acc
  | c :: cs =>
    match digit c with
    | some d => digits base digit (acc * base + d) cs
    | none => none

/-- A decimal or `0x`-hexadecimal integer (R70). -/
def integer (w : String) : Option Nat :=
  match w.toList with
  | [] => none
  | '0' :: 'x' :: c :: cs => digits 16 hexDigit 0 (c :: cs)
  | cs => digits 10 decDigit 0 cs

/-- `<imm8>` (R70): an integer in 0..255; any other value is refused. -/
def imm8 (w : String) : Except RefusalReason Byte :=
  match integer w with
  | some n => if n ≤ 255 then .ok (BitVec.ofNat 8 n) else .error .immediateRange
  | none => .error .immediateRange

/-! ### Names -/

/-- The targets a line may name (R36). -/
def targetName : String → Option Target
  | "xd" => some .xd
  | "yd" => some .yd
  | "xc" => some .xc
  | "yc" => some .yc
  | "xf" => some .xf
  | "yf" => some .yf
  | _ => none

/-- `<axis>` of `WRCMD` and `WRDATA` (R71). -/
def axisName : String → Option Axis
  | "x" => some .x
  | "y" => some .y
  | _ => none

/-- The axis selector of a host sequence (R71, R112). -/
def selectorName : String → Option Selector
  | "x" => some .x
  | "y" => some .y
  | "both" => some .both
  | _ => none

/-! ### Lines -/

/-- `WRB <t>, <imm8>` (R70), with `<t>` a target `WRB` may name. -/
def assembleWrb (t : Option Target) (imm : String) : Assembled :=
  match t with
  | none => .notInSyntax
  | some t =>
    if t.writable then
      match imm8 imm with
      | .ok d => .words [encode (.wrb t d)]
      | .error r => .refused r
    else .notInSyntax

/-- `RDB <t>` (R70), with `<t>` a target `RDB` may name. -/
def assembleRdb (t : Option Target) : Assembled :=
  match t with
  | none => .notInSyntax
  | some t => if t.readable then .words [encode (.rdb t)] else .notInSyntax

/-- A host sequence that takes a selector only. -/
def assembleSeq (ops : Selector → List Instr) (sel : Option Selector) : Assembled :=
  match sel with
  | none => .notInSyntax
  | some sel => .words (wordsOf (ops sel))

/-- `WRPRESET a, v` (43_host_sequences.md R116): a wide `v` is truncated. DESIGN CHOICE: the spec gives `v` no written form; it
is read as `integer` reads an immediate, and a word that is no integer is outside the syntax (log 27). -/
def assembleWrPreset (sel : Option Selector) (v : String) : Assembled :=
  match sel, integer v with
  | some sel, some v => .words (wordsOf (wrPresetOps sel v))
  | _, _ => .notInSyntax

/-- `SETCNT a, v` (R118): a `v` of 2^24 or more is refused. DESIGN CHOICE: the spec gives `v` no written form; it is read as
`integer` reads an immediate, and a word that is no integer is outside the syntax (log 27). -/
def assembleSetCnt (sel : Option Selector) (v : String) : Assembled :=
  match sel, integer v with
  | some sel, some v => if v < 2 ^ 24 then .words (wordsOf (setCntOps sel v)) else .refused .valueTooWide
  | _, _ => .notInSyntax

/-- One line of a program (R70, R71). A line without words is empty and stands for nothing. -/
def assemble (line : String) : Assembled :=
  match tokens line with
  | [] => .words []
  | ["setdir", "in"] => .words [encode (.setdir .input)]
  | ["setdir", "out"] => .words [encode (.setdir .output)]
  | ["wrb", t, ",", imm] => assembleWrb (targetName t) imm
  | ["rdb", t] => assembleRdb (targetName t)
  | ["wrcmd", a, ",", imm] => assembleWrb ((axisName a).map Axis.commandTarget) imm
  | ["wrdata", a, ",", imm] => assembleWrb ((axisName a).map Axis.dataTarget) imm
  | ["rdlatch", a] => assembleSeq rdLatchOps (selectorName a)
  | ["rdflags", a] => assembleSeq rdFlagsOps (selectorName a)
  | ["wrpreset", a, ",", v] => assembleWrPreset (selectorName a) v
  | ["setcnt", a, ",", v] => assembleSetCnt (selectorName a) v
  | _ => .notInSyntax

/-- Put the words of a line at the end of the request stream, or record its refusal (60_exceptions.md R141). A line
outside the syntax changes nothing. -/
def State.issueLine (line : String) (s : State) : State :=
  match assemble line with
  | .words ws => { s with pending := s.pending ++ ws.map HostInput.word }
  | .refused r => s.raiseRefused r
  | .notInSyntax => s

end Sys2Proof.Machine
end

