-- ==== Sys2Proof/Safety.lean ====
section
/-! DEFINITION. What counts as a safe state: the invariants between operations (10_state.md R26), the states of the read
cycle (42_transaction_engine.md R103), and a clean end (60_exceptions.md R144). -/

namespace Sys2Proof.Machine

/-- The states of the read-cycle state machine (R103). -/
inductive CycleState where
  | s0
  | s1
  | s2
  | d1
  | d2
deriving DecidableEq, Repr

/-- The pair (`CURSOR`, `CS_n`) that a cycle state stands for (R103). -/
def CycleState.pair : CycleState → BitVec 2 × Level
  | .s0 => (0, .high)
  | .s1 => (1, .low)
  | .s2 => (2, .low)
  | .d1 => (1, .high)
  | .d2 => (2, .high)

/-- The state is in cycle state `k`. -/
abbrev State.inCycle (s : State) (k : CycleState) : Prop := (s.cursor, s.pins.csN) = k.pair

/-- What an operation is to the read cycle: the columns of the table of R103. -/
inductive CycleOp where
  | dataRead
  | flagRead
  | write
  | setdir
  | reset
deriving DecidableEq, Repr

/-- The table of R103. -/
def CycleState.after : CycleState → CycleOp → CycleState
  | .s0, .dataRead => .s1
  | .s0, .flagRead => .s0
  | .s0, .write => .s0
  | .s0, .setdir => .s0
  | .s0, .reset => .s0
  | .s1, .dataRead => .s2
  | .s1, .flagRead => .d1
  | .s1, .write => .d1
  | .s1, .setdir => .s1
  | .s1, .reset => .s0
  | .s2, .dataRead => .s0
  | .s2, .flagRead => .d2
  | .s2, .write => .d2
  | .s2, .setdir => .s2
  | .s2, .reset => .s0
  | .d1, .dataRead => .s2
  | .d1, .flagRead => .d1
  | .d1, .write => .d1
  | .d1, .setdir => .d1
  | .d1, .reset => .s0
  | .d2, .dataRead => .s0
  | .d2, .flagRead => .d2
  | .d2, .write => .d2
  | .d2, .setdir => .d2
  | .d2, .reset => .s0

/-- Desynchronised (10_state.md R29): a cycle is open while chip-select is high. -/
abbrev State.desynchronised (s : State) : Prop := s.cursor ≠ 0 ∧ s.pins.csN = .high

/-- The last events of the trace are those of a data read left half-closed (R26 item 2, 42_transaction_engine.md R99). -/
abbrev State.endsInOpenRead (s : State) : Prop :=
  ∃ (t : Target) (before : List Event), t.cls = .data ∧
    s.trace = before ++ readOpening s.params t ++ [.sample, partialClosure, .wait (.ns 90)]

/-- The invariants between operations (10_state.md R26), with the legality of `CURSOR` (R24). -/
structure BusInvariant (s : State) : Prop where
  cursorLegal : s.cursor ≠ 3
  strobesHigh : s.pins.wrN = .high ∧ s.pins.rdN = .high
  selectedMidCycle : s.pins.csN = .low → s.cursor = 1 ∨ s.cursor = 2
  selectedIsInput : s.pins.csN = .low → s.viol = false → s.pins.dir = .input
  selectedAfterRead : s.pins.csN = .low → s.viol = false → s.endsInOpenRead
  idleDeselected : s.cursor = 0 → s.pins.csN = .high
  cycleIsSelected : s.viol = false → (s.cursor ≠ 0 ↔ s.pins.csN = .low)

/-- The final state is clean (60_exceptions.md R144). -/
def State.clean (s : State) : Bool :=
  s.cursor = 0 && !s.viol && !s.refused &&
    match s.chip with
    | none => true
    | some c => !c.envFault

/-- The lines at each point of a run of events from `l`, `l` first. -/
def pinHistory (l : Pins) : List Event → List Pins
  | [] => [l]
  | e :: es => l :: pinHistory (e.apply l) es

/-- Chip and controller would both drive the data lines (70_reset_and_hazards.md R166). -/
def Pins.contention (l : Pins) : Bool := l.rdN = .low && l.dir = .output

/-- Every direction switch is followed at once by the settle delay (70_reset_and_hazards.md R158). -/
def settled : List Event → Bool
  | [] => true
  | .setMode _ :: .wait .tSettle :: es => settled es
  | .setMode _ :: _ => false
  | _ :: es => settled es

/-- The minimum duration of a wait in ns (00_scope.md R14, 70_reset_and_hazards.md R168). -/
def Delay.minNs : Delay → Nat
  | .tSettle => Config.tSettleNs
  | .ns n => n

/-- The lines as the boot duty leaves them (70_reset_and_hazards.md R156): the strobes at level 1. -/
abbrev Pins.booted (l : Pins) : Prop := l.csN = .high ∧ l.wrN = .high ∧ l.rdN = .high

end Sys2Proof.Machine
end

