-- ==== Sys2Proof/Certificates/Slice0/Obligations.lean ====
section
/-! DEFINITION. The statements for the provers, in the order of OBLIGATIONS.json. -/

open Sys2Proof Sys2Proof.Machine

/-! ### Encoding -/

/-- R72: the spec's encoding examples, each request word with what it decodes to. -/
def Obligations.SpecEncodingExamplesDecode : Prop :=
  decode (.req 0x0000) = .ok (.setdir .input) ∧ decode (.req 0x0100) = .ok (.setdir .output) ∧
  decode (.req 0x2042) = .ok (.wrb .xd 0x42) ∧ decode (.req 0x2442) = .ok (.wrb .yd 0x42) ∧
  decode (.req 0x2811) = .ok (.wrb .xc 0x11) ∧ decode (.req 0x2C01) = .ok (.wrb .yc 0x01) ∧
  decode (.req 0x4000) = .ok (.rdb .xd) ∧ decode (.req 0x4400) = .ok (.rdb .yd) ∧
  decode (.req 0x5000) = .ok (.rdb .xf) ∧ decode (.req 0x5400) = .ok (.rdb .yf) ∧
  decode (.req 0x6000) = .error .reservedOp ∧ decode (.req 0x3000) = .error .writeToFlags ∧
  decode (.req 0x4800) = .error .readFromCommand ∧ decode (.req 0x5800) = .error .reservedTarget ∧
  decode (.req 0x4001) = .error .nonzeroReservedField

/-- Decoding the word of a well-formed instruction gives it back, for all eleven rows and every operand. -/
def Obligations.DecodeOfEncodeIsTheInstruction : Prop :=
  ∀ i : Instr, i.wf = true → decode (encode i) = .ok i

/-- What the decoder accepts is well formed, and its encoding is the word itself: no two words decode to one instruction. -/
def Obligations.EncodeOfDecodeIsTheWord : Prop :=
  ∀ (c : CodeWord) (i : Instr), decode c = .ok i → i.wf = true ∧ encode i = c

/-- R59: exactly which words each refusal takes, said on the bits of the word. -/
def Obligations.RequestWordRefusedByItsFirstFailedCheck : Prop :=
  ∀ w : ReqWord,
    (decode (.req w) = .error .reservedOp ↔ 0x6000 ≤ w.toNat) ∧
    (decode (.req w) = .error .reservedTarget ↔
      0x2000 ≤ w.toNat ∧ w.toNat < 0x6000 ∧ w.getLsbD 12 = true ∧ w.getLsbD 11 = true) ∧
    (decode (.req w) = .error .writeToFlags ↔
      0x2000 ≤ w.toNat ∧ w.toNat < 0x4000 ∧ w.getLsbD 12 = true ∧ w.getLsbD 11 = false) ∧
    (decode (.req w) = .error .readFromCommand ↔
      0x4000 ≤ w.toNat ∧ w.toNat < 0x6000 ∧ w.getLsbD 12 = false ∧ w.getLsbD 11 = true) ∧
    (decode (.req w) = .error .nonzeroReservedField ↔
      (w.toNat < 0x2000 ∧ w ≠ 0x0000 ∧ w ≠ 0x0100) ∨
      (0x2000 ≤ w.toNat ∧ w.toNat < 0x4000 ∧ w.getLsbD 12 = false ∧ (w.getLsbD 9 = true ∨ w.getLsbD 8 = true)) ∨
      (0x4000 ≤ w.toNat ∧ w.toNat < 0x6000 ∧ w.getLsbD 11 = false ∧ w.extractLsb' 0 10 ≠ 0))

/-- R64: a command byte is its three fields put together by OR. For a flag value that fits, each encoder function returns
the byte put together from the fields of its row; a wider one it refuses. -/
def Obligations.CommandByteIsItsFieldsJoinedByOr : Prop :=
  (∀ (a : BitVec 1) (r : CommandReg) (f : BitVec 5),
    commandByte a r f = (a.setWidth 8 <<< 7) ||| (r.sel.setWidth 8 <<< 5) ||| f.setWidth 8) ∧
  (∀ (fn : EncoderFn) (f : Nat), f ≤ 0x1F → ∃ b, applyFn fn f = .ok b ∧ encode (fnInstr fn f) = .cmd b) ∧
  (∀ (fn : EncoderFn) (f : Nat), 0x1F < f → applyFn fn f = .error .flagsTooWide)

/-! ### The command encoder -/

/-- An encoder call, whichever of the twelve functions, gives the host its byte and changes nothing else; a flag value above
0x1F is refused (R78). That the row of a function is executed and hands its byte over as the result is the model's choice
(log 10). -/
def Obligations.EncoderCallsTouchNoControllerState : Prop :=
  ∀ (fn : EncoderFn) (f : Nat) (s : State),
    (f ≤ 0x1F → ∃ b, applyFn fn f = .ok b ∧ exec (fnInstr fn f) s = .next { s with result := some b }) ∧
    (0x1F < f → applyFn fn f = .error .flagsTooWide ∧
      exec (fnInstr fn f) s =
        .next { s with refused := true, refusals := s.refusals ++ [.flagsTooWide], result := none })

/-- The three functions of R80, and both `RLD` rows, for a flag value that fits and for one that does not. That running a row
hands its byte over as the result is the model's choice (log 10). -/
def Obligations.RldRowsAnswerTheirByte : Prop :=
  ∀ (f : Nat) (s : State),
    (f ≤ 0x1F →
      reloadX f = .ok (0x00 ||| BitVec.ofNat 8 f) ∧ reloadY f = .ok (0x00 ||| BitVec.ofNat 8 f) ∧
      reload f = .ok (0x80 ||| 0x00 ||| BitVec.ofNat 8 f) ∧
      encode (.rldAxis f) = .cmd (0x00 ||| BitVec.ofNat 8 f) ∧
      encode (.rldBase f) = .cmd (0x80 ||| 0x00 ||| BitVec.ofNat 8 f) ∧
      exec (.rldAxis f) s = .next { s with result := some (0x00 ||| BitVec.ofNat 8 f) } ∧
      exec (.rldBase f) s = .next { s with result := some (0x80 ||| 0x00 ||| BitVec.ofNat 8 f) }) ∧
    (0x1F < f →
      reloadX f = .error .flagsTooWide ∧ reloadY f = .error .flagsTooWide ∧ reload f = .error .flagsTooWide ∧
      exec (.rldAxis f) s =
        .next { s with refused := true, refusals := s.refusals ++ [.flagsTooWide], result := none } ∧
      exec (.rldBase f) s =
        .next { s with refused := true, refusals := s.refusals ++ [.flagsTooWide], result := none })

/-- The three functions of R81, and both `CMR` rows, for a flag value that fits and for one that does not. That running a row
hands its byte over as the result is the model's choice (log 10). -/
def Obligations.CmrRowsAnswerTheirByte : Prop :=
  ∀ (f : Nat) (s : State),
    (f ≤ 0x1F →
      modeControlX f = .ok (0x20 ||| BitVec.ofNat 8 f) ∧ modeControlY f = .ok (0x20 ||| BitVec.ofNat 8 f) ∧
      modeControl f = .ok (0x80 ||| 0x20 ||| BitVec.ofNat 8 f) ∧
      encode (.cmrAxis f) = .cmd (0x20 ||| BitVec.ofNat 8 f) ∧
      encode (.cmrBase f) = .cmd (0x80 ||| 0x20 ||| BitVec.ofNat 8 f) ∧
      exec (.cmrAxis f) s = .next { s with result := some (0x20 ||| BitVec.ofNat 8 f) } ∧
      exec (.cmrBase f) s = .next { s with result := some (0x80 ||| 0x20 ||| BitVec.ofNat 8 f) }) ∧
    (0x1F < f →
      modeControlX f = .error .flagsTooWide ∧ modeControlY f = .error .flagsTooWide ∧ modeControl f = .error .flagsTooWide ∧
      exec (.cmrAxis f) s =
        .next { s with refused := true, refusals := s.refusals ++ [.flagsTooWide], result := none } ∧
      exec (.cmrBase f) s =
        .next { s with refused := true, refusals := s.refusals ++ [.flagsTooWide], result := none })

/-- The three functions of R82, and both `IOR` rows, for a flag value that fits and for one that does not. That running a row
hands its byte over as the result is the model's choice (log 10). -/
def Obligations.IorRowsAnswerTheirByte : Prop :=
  ∀ (f : Nat) (s : State),
    (f ≤ 0x1F →
      ioControlX f = .ok (0x40 ||| BitVec.ofNat 8 f) ∧ ioControlY f = .ok (0x40 ||| BitVec.ofNat 8 f) ∧
      ioControl f = .ok (0x80 ||| 0x40 ||| BitVec.ofNat 8 f) ∧
      encode (.iorAxis f) = .cmd (0x40 ||| BitVec.ofNat 8 f) ∧
      encode (.iorBase f) = .cmd (0x80 ||| 0x40 ||| BitVec.ofNat 8 f) ∧
      exec (.iorAxis f) s = .next { s with result := some (0x40 ||| BitVec.ofNat 8 f) } ∧
      exec (.iorBase f) s = .next { s with result := some (0x80 ||| 0x40 ||| BitVec.ofNat 8 f) }) ∧
    (0x1F < f →
      ioControlX f = .error .flagsTooWide ∧ ioControlY f = .error .flagsTooWide ∧ ioControl f = .error .flagsTooWide ∧
      exec (.iorAxis f) s =
        .next { s with refused := true, refusals := s.refusals ++ [.flagsTooWide], result := none } ∧
      exec (.iorBase f) s =
        .next { s with refused := true, refusals := s.refusals ++ [.flagsTooWide], result := none })

/-- The three functions of R83, and both `IDR` rows, for a flag value that fits and for one that does not. That running a row
hands its byte over as the result is the model's choice (log 10). -/
def Obligations.IdrRowsAnswerTheirByte : Prop :=
  ∀ (f : Nat) (s : State),
    (f ≤ 0x1F →
      indexControlX f = .ok (0x60 ||| BitVec.ofNat 8 f) ∧ indexControlY f = .ok (0x60 ||| BitVec.ofNat 8 f) ∧
      indexControl f = .ok (0x80 ||| 0x60 ||| BitVec.ofNat 8 f) ∧
      encode (.idrAxis f) = .cmd (0x60 ||| BitVec.ofNat 8 f) ∧
      encode (.idrBase f) = .cmd (0x80 ||| 0x60 ||| BitVec.ofNat 8 f) ∧
      exec (.idrAxis f) s = .next { s with result := some (0x60 ||| BitVec.ofNat 8 f) } ∧
      exec (.idrBase f) s = .next { s with result := some (0x80 ||| 0x60 ||| BitVec.ofNat 8 f) }) ∧
    (0x1F < f →
      indexControlX f = .error .flagsTooWide ∧ indexControlY f = .error .flagsTooWide ∧ indexControl f = .error .flagsTooWide ∧
      exec (.idrAxis f) s =
        .next { s with refused := true, refusals := s.refusals ++ [.flagsTooWide], result := none } ∧
      exec (.idrBase f) s =
        .next { s with refused := true, refusals := s.refusals ++ [.flagsTooWide], result := none })

/-- R86: the transfer constants are values of the field `F[4:3]`; two of them OR'd are the third, and each reload function
then encodes the third transfer, whatever the three low flags. -/
def Obligations.TwoTransferCodesEncodeTheThird : Prop :=
  xferPrToCntr ||| xferCntrToOl = 0x18 ∧ xferPsc = 0x18 ∧
  ∀ f : Nat, f ≤ 0x7 →
    reloadX (f ||| xferPrToCntr ||| xferCntrToOl) = .ok (0x00 ||| BitVec.ofNat 8 (f ||| xferPsc)) ∧
    reloadY (f ||| xferPrToCntr ||| xferCntrToOl) = .ok (0x00 ||| BitVec.ofNat 8 (f ||| xferPsc)) ∧
    reload (f ||| xferPrToCntr ||| xferCntrToOl) = .ok (0x80 ||| BitVec.ofNat 8 (f ||| xferPsc)) ∧
    (cmdF (BitVec.ofNat 8 (f ||| xferPrToCntr))).extractLsb' 3 2 = 0b01 ∧
    (cmdF (BitVec.ofNat 8 (f ||| xferCntrToOl))).extractLsb' 3 2 = 0b10 ∧
    (cmdF (BitVec.ofNat 8 (f ||| xferPrToCntr ||| xferCntrToOl))).extractLsb' 3 2 = 0b11

/-- Running any command byte as an instruction completes, gives that byte back to the host and changes nothing else. -/
def Obligations.CommandByteRunsToItself : Prop :=
  ∀ (b : Byte) (s : State), ∃ i, decode (.cmd b) = .ok i ∧ exec i s = .next { s with result := some b }

/-! ### SETDIR -/

/-- R73: the words of `SETDIR`, the words refused in its place, and what it does: it completes with its two writes, its trace
and nothing else; issued mid-cycle it also sets `VIOL`. -/
def Obligations.SetdirWritesDirAndDoutOnly : Prop :=
  (∀ m, encode (.setdir m) = .req (if m = .input then 0x0000 else 0x0100)) ∧
  (∀ w : ReqWord, w.toNat < 0x2000 → w ≠ 0x0000 → w ≠ 0x0100 → decode (.req w) = .error .nonzeroReservedField) ∧
  ∀ (m : Dir) (s : State), s.cursor ≠ 3 →
    ∃ t, exec (.setdir m) s = .next t ∧
      t.pins = { s.pins with dir := m, dout := s.params.neutral } ∧
      t.trace = s.trace ++ [.busOut s.params.neutral, .setMode m, .wait .tSettle] ∧
      t.cursor = s.cursor ∧ t.cycleAxis = s.cycleAxis ∧ t.result = none ∧
      t.viol = (s.viol || s.cursor != 0) ∧
      t.violations = s.violations ++ (if s.cursor = 0 then [] else [.v4]) ∧
      t.refused = s.refused ∧ t.refusals = s.refusals ∧ t.pending = s.pending ∧ t.params = s.params ∧
      t.draws = s.draws ∧ (s.chip = none → t.chip = none) ∧ (s.pins.rdN = .high → t.chip = s.chip)

/-- R76: the three events run whether or not `m` is the current `DIR`, so two `SETDIR m` in a row leave the same lines, cursor
and marks and emit the same trace twice. -/
def Obligations.SetdirTwiceRepeatsTheTrace : Prop :=
  ∀ (m : Dir) (s : State), s.cursor ≠ 3 →
    ∃ t u, exec (.setdir m) s = .next t ∧ exec (.setdir m) t = .next u ∧
      u.pins = t.pins ∧ u.cursor = t.cursor ∧ u.cycleAxis = t.cycleAxis ∧ u.viol = t.viol ∧ u.refused = t.refused ∧
      t.trace = s.trace ++ [.busOut s.params.neutral, .setMode m, .wait .tSettle] ∧
      u.trace = t.trace ++ [.busOut s.params.neutral, .setMode m, .wait .tSettle]

/-- R75: the direction switch moves only the mode of the data lines and the data latch. -/
def Obligations.DirectionSwitchKeepsControlLines : Prop :=
  ∀ (p : Params) (m : Dir) (l : Pins), replay l (dirSwitch p m) = { l with dir := m, dout := p.neutral }

/-! ### WRB -/

/-- R93: the word of a `WRB`; to a data or command target it completes; its trace, what it writes and what it leaves. To a
flags target it is refused at decode. -/
def Obligations.WrbWritesItsLinesAndKeepsCursor : Prop :=
  ∀ (t : Target) (d : Byte) (s : State),
    (t.cls = .flags → decode (.req (requestWord 0b001 t.code 0 0 d)) = .error .writeToFlags) ∧
    (t.cls ≠ .flags → decode (.req (requestWord 0b001 t.code 0 0 d)) = .ok (.wrb t d)) ∧
    (t.cls ≠ .flags → s.cursor ≠ 3 →
      ∃ u, exec (.wrb t d) s = .next u ∧
        u.trace = s.trace ++ writeTrace s.params t d ∧
        u.pins =
          { dir := .output, csN := .high, wrN := .high, rdN := .high, cd := s.params.cd t, xy := s.params.xy t,
            dout := d } ∧
        u.cursor = s.cursor ∧ u.cycleAxis = s.cycleAxis ∧ u.result = none ∧
        u.viol = (s.viol || s.cursor != 0) ∧
        u.violations = s.violations ++ (if s.cursor = 0 then [] else [.v1]) ∧
        u.refused = s.refused ∧ u.refusals = s.refusals ∧ u.pending = s.pending ∧ u.params = s.params ∧
        u.draws = s.draws ∧ (s.chip = none → u.chip = none))

/-- R94: the nine events of a `WRB`, in order. -/
def Obligations.WrbEmitsItsNineEvents : Prop :=
  ∀ (t : Target) (d : Byte) (s : State), t.writable = true → s.cursor ≠ 3 →
    ∃ u, exec (.wrb t d) s = .next u ∧
      u.trace = s.trace ++
        [ .busOut s.params.neutral,
          .setMode .output,
          .wait .tSettle,
          .drive { csN := some .high, wrN := some .high, rdN := some .high },
          .drive { cd := some (s.params.cd t), xy := some (s.params.xy t) },
          .busOut d,
          .drive { csN := some .low, wrN := some .low },
          .wait (.ns 45),
          .drive { csN := some .high, wrN := some .high } ]

/-- R96: a `WRB` in the middle of a read cycle is marked `V1`, its event 4 raises chip-select, and it leaves the cursor, so the
controller is desynchronised. -/
def Obligations.WrbMidCycleDesynchronises : Prop :=
  ∀ (t : Target) (d : Byte) (s : State), t.writable = true → s.cursor = 1 ∨ s.cursor = 2 →
    ∃ u, exec (.wrb t d) s = .next u ∧ u.viol = true ∧ u.violations = s.violations ++ [.v1] ∧
      u.trace = s.trace ++ writeTrace s.params t d ∧
      (replay s.pins ((writeTrace s.params t d).take 4)).csN = .high ∧
      u.cursor = s.cursor ∧ u.desynchronised

/-- R95: the select lines never change while chip-select is low during a `WRB`. -/
def Obligations.WrbSelectLinesSteadyUnderChipSelect : Prop :=
  ∀ (p : Params) (t : Target) (d : Byte) (l : Pins) (before after : List Event) (e : Event),
    writeTrace p t d = before ++ e :: after → (replay l before).csN = .low →
      (e.apply (replay l before)).cd = (replay l before).cd ∧ (e.apply (replay l before)).xy = (replay l before).xy

/-- R97: the data byte stands on the latch from event 6 to the end of a `WRB`. -/
def Obligations.WrbDataHeldThroughTheStrobe : Prop :=
  ∀ (p : Params) (t : Target) (d : Byte) (l : Pins) (before after : List Event),
    writeTrace p t d = before ++ after → 6 ≤ before.length →
      (replay l before).dout = d ∧ (replay l before).dir = .output

/-! ### RDB -/

/-- R98, the data targets: the read gives a byte, leaves chip-select asserted and advances the cursor at 0 and 1, and closes
at 2. The rest of what it writes, and what it leaves. -/
def Obligations.DataReadAdvancesCursorAndClosesAtTwo : Prop :=
  ∀ (t : Target) (s : State), t.cls = .data → s.cursor ≠ 3 →
    ∃ u v, exec (.rdb t) s = .next u ∧ u.result = some v ∧
      u.pins =
        { dir := .input, csN := if s.cursor = 2 then .high else .low, wrN := s.pins.wrN, rdN := .high,
          cd := s.params.cd t, xy := s.params.xy t, dout := s.params.neutral } ∧
      u.cursor = (if s.cursor = 2 then 0 else s.cursor + 1) ∧
      u.cycleAxis = (if s.cursor = 0 then t.axis else s.cycleAxis) ∧
      u.refused = s.refused ∧ u.refusals = s.refusals ∧ u.pending = s.pending ∧ u.params = s.params ∧
      (s.chip = none → u.chip = none)

/-- R102: a flag read always takes the full closure and never touches the cursor; mid-cycle it desynchronises and is marked
`V3`. What else it writes, and what it leaves. -/
def Obligations.FlagReadClosesAndKeepsCursor : Prop :=
  ∀ (t : Target) (s : State), t.cls = .flags → s.cursor ≠ 3 →
    ∃ u v, exec (.rdb t) s = .next u ∧ u.result = some v ∧
      u.pins =
        { dir := .input, csN := .high, wrN := s.pins.wrN, rdN := .high, cd := s.params.cd t, xy := s.params.xy t,
          dout := s.params.neutral } ∧
      u.trace = s.trace ++ readOpening s.params t ++
        [.sample, .drive { csN := some .high, rdN := some .high }, .wait (.ns 90)] ∧
      u.cursor = s.cursor ∧ (s.cursor ≠ 0 → u.desynchronised) ∧ u.cycleAxis = s.cycleAxis ∧
      u.viol = (s.viol || s.cursor != 0) ∧
      u.violations = s.violations ++ (if s.cursor = 0 then [] else [.v3]) ∧
      u.refused = s.refused ∧ u.refusals = s.refusals ∧ u.pending = s.pending ∧ u.params = s.params ∧
      (s.chip = none → u.chip = none)

/-- R99, R101: the nine events of an `RDB`, in order, with the closure and the cursor update of its target and cursor. -/
def Obligations.RdbEmitsItsNineEvents : Prop :=
  ∀ (t : Target) (s : State), t.readable = true → s.cursor ≠ 3 →
    ∃ u, exec (.rdb t) s = .next u ∧
      u.trace = s.trace ++
        [ .busOut s.params.neutral,
          .setMode .input,
          .wait .tSettle,
          .drive { cd := some (s.params.cd t), xy := some (s.params.xy t) },
          .drive { csN := some .low, rdN := some .low },
          .wait (.ns 80),
          .sample,
          if t.cls = .flags ∨ s.cursor = 2 then .drive { csN := some .high, rdN := some .high }
            else .drive { rdN := some .high },
          .wait (.ns 90) ] ∧
      u.cursor = (if t.cls = .flags then s.cursor else if s.cursor = 2 then 0 else s.cursor + 1)

/-- R104: the cycle check of a read. A data read records its axis at cursor 0 and is marked when it is of the other axis
mid-cycle, and goes on with the one shared cursor; a flag read is marked mid-cycle and records nothing. -/
def Obligations.ReadsCheckTheOpenCycle : Prop :=
  ∀ (t : Target) (s : State), s.cursor ≠ 3 →
    (t.cls = .data →
      ∃ u, exec (.rdb t) s = .next u ∧
        u.cycleAxis = (if s.cursor = 0 then t.axis else s.cycleAxis) ∧
        u.viol = (s.viol || (s.cursor != 0 && t.axis != s.cycleAxis)) ∧
        u.violations = s.violations ++ (if s.cursor ≠ 0 ∧ t.axis ≠ s.cycleAxis then [.v2] else []) ∧
        (s.cursor = 1 → u.cursor = 2 ∧ u.pins.csN = .low)) ∧
    (t.cls = .flags →
      ∃ u, exec (.rdb t) s = .next u ∧ u.cycleAxis = s.cycleAxis ∧ u.viol = (s.viol || s.cursor != 0) ∧
        u.violations = s.violations ++ (if s.cursor ≠ 0 then [.v3] else []))

/-- Three data reads from cursor 0 visit 1, 2 and 0, and only the third raises chip-select. -/
def Obligations.ThreeDataReadsCloseTheCycle : Prop :=
  ∀ (t1 t2 t3 : Target) (s : State), t1.cls = .data → t2.cls = .data → t3.cls = .data → s.cursor = 0 →
    ∃ u1 u2 u3, exec (.rdb t1) s = .next u1 ∧ exec (.rdb t2) u1 = .next u2 ∧ exec (.rdb t3) u2 = .next u3 ∧
      u1.cursor = 1 ∧ u1.pins.csN = .low ∧ u2.cursor = 2 ∧ u2.pins.csN = .low ∧ u3.cursor = 0 ∧
      u3.pins.csN = .high

/-- With no chip attached the byte read is the draw of the bus oracle, which sees the trace up to the sample (log 6), and bit
`i` of it is the level of data line `Di` at that instant (R41). -/
def Obligations.OpenSampleIsTheNextFreeValue : Prop :=
  ∀ (t : Target) (s : State), t.readable = true → s.cursor ≠ 3 → s.chip = none →
    ∃ u v, exec (.rdb t) s = .next u ∧ v = Config.busOracle (s.trace ++ readOpening s.params t) s.draws ∧
      u.result = some v ∧ u.draws = s.draws + 1 ∧
      ∀ i : Fin 8, (replay s.pins (readOpening s.params t)).line v (.d i) = Level.ofBool (v.getLsbD i)

/-- R45: the two pairs without a meaning, a write to a flags target and a read from a command target, are refused and
leave everything but the refusal marks. -/
def Obligations.WriteToFlagsAndReadFromCommandRefused : Prop :=
  ∀ (t : Target) (d : Byte) (s : State),
    (t.cls = .flags → exec (.wrb t d) s =
      .next { s with refused := true, refusals := s.refusals ++ [.writeToFlags], result := none }) ∧
    (t.cls = .command → exec (.rdb t) s =
      .next { s with refused := true, refusals := s.refusals ++ [.readFromCommand], result := none })

/-- R103: the read-cycle state machine: from each of its five states, each operation and the reset event lead to the state
the table gives, with the violation the table gives. -/
def Obligations.ReadCycleFollowsItsTable : Prop :=
  ∀ (k : CycleState) (s : State), s.inCycle k →
    (∀ t, t.cls = .data → ∃ u, exec (.rdb t) s = .next u ∧ u.inCycle (k.after .dataRead) ∧
      (k = .s0 → u.cycleAxis = t.axis) ∧
      u.violations = s.violations ++ (if k ≠ .s0 ∧ t.axis ≠ s.cycleAxis then [.v2] else [])) ∧
    (∀ t, t.cls = .flags → ∃ u, exec (.rdb t) s = .next u ∧ u.inCycle (k.after .flagRead) ∧
      u.violations = s.violations ++ (if k = .s0 then [] else [.v3])) ∧
    (∀ t d, t.writable = true → ∃ u, exec (.wrb t d) s = .next u ∧ u.inCycle (k.after .write) ∧
      u.violations = s.violations ++ (if k = .s0 then [] else [.v1])) ∧
    (∀ m, ∃ u, exec (.setdir m) s = .next u ∧ u.inCycle (k.after .setdir) ∧
      u.violations = s.violations ++ (if k = .s0 then [] else [.v4])) ∧
    s.resetEvent.inCycle (k.after .reset)

/-! ### The step -/

/-- A step runs the instruction its next word decodes to, and for an encoder call the row of its function, with the input taken
off the stream, which is the model's (log 9). -/
def Obligations.StepRunsTheDecodedInstruction : Prop :=
  (∀ (c : CodeWord) (rest : List HostInput) (i : Instr) (s : State),
    s.pending = .word c :: rest → decode c = .ok i → s.cursor ≠ 3 → step s = exec i { s with pending := rest }) ∧
  (∀ (fn : EncoderFn) (f : Nat) (rest : List HostInput) (s : State),
    s.pending = .call fn f :: rest → s.cursor ≠ 3 → step s = exec (fnInstr fn f) { s with pending := rest })

/-- A word the decoder refuses leaves the state as it is, marks `REFUSED`, records the reason, emits no trace. The request
stream is the model's (log 9). -/
def Obligations.StepRefusesAnUndecodableWord : Prop :=
  ∀ (c : CodeWord) (rest : List HostInput) (r : RefusalReason) (s : State),
    s.pending = .word c :: rest → decode c = .error r → s.cursor ≠ 3 →
      step s = .next { s with pending := rest, refused := true, refusals := s.refusals ++ [r], result := none }

/-- A request or a reset that arrives while an operation is in progress is refused. That such an input says so itself is the
model's choice (log 11). -/
def Obligations.InputsDuringAnOperationRefused : Prop :=
  ∀ (c : CodeWord) (rest : List HostInput) (s : State), s.cursor ≠ 3 →
    (s.pending = .wordDuringOperation c :: rest →
      step s = .next { s with pending := rest, refused := true, refusals := s.refusals ++ [.overlap], result := none }) ∧
    (s.pending = .resetDuringOperation :: rest →
      step s =
        .next { s with pending := rest, refused := true, refusals := s.refusals ++ [.resetMidOperation], result := none })

/-- No run from reset reaches `CURSOR` = 3 (R24). That in such a state each of the three operations and each pending input, a
reset too, is refused is the model's choice (log 8): R24 refuses it as a launch state. -/
def Obligations.CursorThreeIsRefused : Prop :=
  State.reset.cursor ≠ 3 ∧ (∀ s t : State, s.cursor ≠ 3 → step s = .next t → t.cursor ≠ 3) ∧
  ∀ s : State, s.cursor = 3 →
    (∀ m, exec (.setdir m) s =
      .next { s with refused := true, refusals := s.refusals ++ [.cursorIllFormed], result := none }) ∧
    (∀ t d, t.writable = true → exec (.wrb t d) s =
      .next { s with refused := true, refusals := s.refusals ++ [.cursorIllFormed], result := none }) ∧
    (∀ t, t.readable = true → exec (.rdb t) s =
      .next { s with refused := true, refusals := s.refusals ++ [.cursorIllFormed], result := none }) ∧
    (∀ inp rest, s.pending = inp :: rest → step s =
      .next { s with pending := rest, refused := true, refusals := s.refusals ++ [.cursorIllFormed], result := none })

/-- R153: the reset event, with nothing said of `CD`, `XY` and `CYCLE_AXIS`; the marks are unchanged by it and 0 at launch.
After it the controller waits for a request. -/
def Obligations.ResetEventReturnsToIdle : Prop :=
  State.reset.viol = false ∧ State.reset.refused = false ∧
  ∀ (rest : List HostInput) (s : State), s.pending = .reset :: rest → s.cursor ≠ 3 →
    ∃ t, step s = .next t ∧ t.pins.dir = .input ∧ t.pins.csN = .high ∧ t.pins.wrN = .high ∧ t.pins.rdN = .high ∧
      t.pins.dout = s.params.neutral ∧ t.cursor = 0 ∧ t.viol = s.viol ∧ t.refused = s.refused ∧
      t.violations = s.violations ∧ t.refusals = s.refusals ∧ t.trace = s.trace ∧ t.chip = s.chip ∧
      t.params = s.params ∧ t.pending = rest ∧ (rest = [] → step t = .next t)

/-- R16, R153: the state at launch, of the elements whose value the spec gives. -/
def Obligations.LaunchStateIsTheResetState : Prop :=
  State.reset.pins.dir = .input ∧ State.reset.pins.csN = .high ∧ State.reset.pins.wrN = .high ∧
    State.reset.pins.rdN = .high ∧ State.reset.pins.dout = State.reset.params.neutral ∧ State.reset.cursor = 0 ∧
    State.reset.viol = false ∧ State.reset.refused = false ∧ State.reset.trace = [] ∧
    step State.reset = .next State.reset

/-- A run that ends in the middle of a read cycle sets `V5`; one that ends at cursor 0 adds no mark. The final state is
clean exactly when the four conditions of R144 hold. That the end of a run is an input, and that nothing follows it, is the
model's choice (log 12). -/
def Obligations.RunEndingMidCycleIsMarked : Prop :=
  ∀ (rest : List HostInput) (s : State), s.pending = .endOfRun :: rest → s.cursor ≠ 3 →
    ∃ t, step s = .next t ∧ t.pending = [] ∧ t.pins = s.pins ∧ t.cursor = s.cursor ∧ t.trace = s.trace ∧
      t.refused = s.refused ∧ t.chip = s.chip ∧ t.viol = (s.viol || s.cursor != 0) ∧
      t.violations = s.violations ++ (if s.cursor = 0 then [] else [.v5]) ∧
      (t.clean = true ↔ t.cursor = 0 ∧ t.viol = false ∧ t.refused = false ∧
        ∀ c, t.chip = some c → c.envFault = false)

/-- R137: no step traps or stops: every step answers a next state. -/
def Obligations.EveryStepAnswersANextState : Prop :=
  ∀ s : State, ∃ t, step s = .next t

/-- R26: every step keeps the invariants between operations. -/
def Obligations.StepKeepsTheBusInvariant : Prop :=
  ∀ s t : State, BusInvariant s → step s = .next t → BusInvariant t

/-- The launch state meets the invariants between operations. -/
def Obligations.LaunchStateMeetsTheBusInvariant : Prop := BusInvariant State.reset

/-- R143: no step and no reset clears `VIOL` or `REFUSED`. -/
def Obligations.MarksAreSticky : Prop :=
  ∀ s t : State, step s = .next t →
    (s.viol = true → t.viol = true) ∧ (s.refused = true → t.refused = true) ∧
    s.violations <+: t.violations ∧ s.refusals <+: t.refusals

/-- R142: `VIOL` is newly set only by a cause on the list, under its condition. -/
def Obligations.ViolationsHaveAListedCause : Prop :=
  ∀ s t : State, step s = .next t → s.viol = false → t.viol = true →
    s.cursor ≠ 0 ∧ ∃ inp rest, s.pending = inp :: rest ∧
      ((∃ c u d, inp = .word c ∧ decode c = .ok (.wrb u d) ∧ t.violations = s.violations ++ [.v1]) ∨
       (∃ c u, inp = .word c ∧ decode c = .ok (.rdb u) ∧ u.cls = .data ∧ u.axis ≠ s.cycleAxis ∧
          t.violations = s.violations ++ [.v2]) ∨
       (∃ c u, inp = .word c ∧ decode c = .ok (.rdb u) ∧ u.cls = .flags ∧ t.violations = s.violations ++ [.v3]) ∨
       (∃ c m, inp = .word c ∧ decode c = .ok (.setdir m) ∧ t.violations = s.violations ++ [.v4]) ∨
       (inp = .endOfRun ∧ t.violations = s.violations ++ [.v5]))

/-- R139: a refused step sets no violation: `VIOL`, the lines, the cursor and the trace are as before. -/
def Obligations.RefusedStepChangesOnlyTheRefusalMark : Prop :=
  ∀ s t : State, step s = .next t → t.refusals ≠ s.refusals →
    t.refused = true ∧ t.viol = s.viol ∧ t.violations = s.violations ∧ t.pins = s.pins ∧ t.cursor = s.cursor ∧
    t.cycleAxis = s.cycleAxis ∧ t.trace = s.trace ∧ t.chip = s.chip ∧ t.result = none

/-- R47: the complete trace is the concatenation of the operations' traces: a step only adds at its end. -/
def Obligations.TraceGrowsAtItsEndOnly : Prop :=
  ∀ s t : State, step s = .next t → s.trace <+: t.trace

/-- The lines after an instruction are those its own events lead to: nothing moves a line but an event of the trace. -/
def Obligations.TraceExplainsTheLines : Prop :=
  ∀ (i : Instr) (s t : State), exec i s = .next t →
    ∃ es, t.trace = s.trace ++ es ∧ t.pins = replay s.pins es

/-- R158: in what an instruction emits, every direction switch is followed at once by the settle delay. -/
def Obligations.EveryDirectionSwitchSettles : Prop :=
  ∀ (i : Instr) (s t : State), exec i s = .next t → ∃ es, t.trace = s.trace ++ es ∧ settled es = true

/-- R166: at no point inside an operation is the read strobe low while the controller drives the data lines. -/
def Obligations.NoContentionInsideAnOperation : Prop :=
  ∀ (i : Instr) (s t : State), s.pins.rdN = .high → exec i s = .next t →
    ∃ es, t.trace = s.trace ++ es ∧ ∀ l ∈ pinHistory s.pins es, l.contention = false

/-! ### Byte order and host sequences -/

/-- R40: the two conversions, and the round trip for every 24-bit value. -/
def Obligations.JoinOfSplitIsTheValue : Prop :=
  (∀ v : U24, split3 v = { b0 := v.extractLsb' 0 8, b1 := v.extractLsb' 8 8, b2 := v.extractLsb' 16 8 }) ∧
  (∀ b0 b1 b2 : Byte,
    join3 b0 b1 b2 = (b0.setWidth 24 ||| (b1.setWidth 24 <<< 8) ||| (b2.setWidth 24 <<< 16))) ∧
  ∀ v : U24, join3 (split3 v).b0 (split3 v).b1 (split3 v).b2 = v

/-- R113: `RDLATCH` is its four operations and returns the join of the three bytes its reads sample, first byte lowest. From
an idle controller it ends idle without a mark. From the middle of a cycle it is marked and its reads are misaligned: they
start at the byte where the cursor stands, and the cursor ends where it was. On either axis the selector picks that axis. -/
def Obligations.RdlatchJoinsItsThreeReads : Prop :=
  (rdLatchOps .x = rdLatchAxisOps .x ∧ rdLatchOps .y = rdLatchAxisOps .y ∧
    ∀ s : State, rdLatch .x s = rdLatchAxis .x s ∧ rdLatch .y s = rdLatchAxis .y s) ∧
  ∀ (a : Axis) (s : State),
    rdLatchAxisOps a = [.wrb a.commandTarget 0x11, .rdb a.dataTarget, .rdb a.dataTarget, .rdb a.dataTarget] ∧
    (s.cursor ≠ 3 →
      ∃ u0 u1 u2 u3 b0 b1 b2,
        exec (.wrb a.commandTarget 0x11) s = .next u0 ∧ exec (.rdb a.dataTarget) u0 = .next u1 ∧
        exec (.rdb a.dataTarget) u1 = .next u2 ∧ exec (.rdb a.dataTarget) u2 = .next u3 ∧
        u1.result = some b0 ∧ u2.result = some b1 ∧ u3.result = some b2 ∧
        u0.cursor = s.cursor ∧
        (s.cursor = 0 → u1.cursor = 1 ∧ u1.pins.csN = .low ∧ u2.cursor = 2 ∧ u2.pins.csN = .low) ∧
        (s.cursor = 1 → u1.cursor = 2 ∧ u2.cursor = 0 ∧ u3.cursor = 1) ∧
        (s.cursor = 2 → u1.cursor = 0 ∧ u2.cursor = 1 ∧ u3.cursor = 2) ∧
        rdLatchAxis a s = (some (b0.setWidth 24 ||| (b1.setWidth 24 <<< 8) ||| (b2.setWidth 24 <<< 16)), u3) ∧
        (s.cursor = 0 → u3.cursor = 0 ∧ u3.pins.csN = .high ∧ u3.viol = s.viol) ∧
        (s.cursor ≠ 0 → u0.violations = s.violations ++ [.v1] ∧ u3.viol = true ∧ u3.cursor = s.cursor))

/-- R114: the two reads with `Both` issue nothing; `RDLATCH Both` returns 0, and nothing is said of the byte of
`RDFLAGS Both`. -/
def Obligations.ReadsOfBothAxesTouchNothing : Prop :=
  ∀ s : State, rdLatch .both s = (some 0, s) ∧ rdLatchOps .both = [] ∧ rdFlagsOps .both = [] ∧
    ∃ b, (rdFlags .both s).1 = some b ∧ (rdFlags .both s).2.pins = s.pins ∧ (rdFlags .both s).2.trace = s.trace ∧
      (rdFlags .both s).2.cursor = s.cursor ∧ (rdFlags .both s).2.viol = s.viol ∧
      (rdFlags .both s).2.refused = s.refused ∧ (rdFlags .both s).2.chip = s.chip

/-- R115: `RDFLAGS` on an axis is one read of its flags target: it returns that read's byte and leaves the cursor; mid-cycle
it is marked. On either axis the selector picks that axis. -/
def Obligations.RdflagsIsOneFlagRead : Prop :=
  (rdFlagsOps .x = [.rdb .xf] ∧ rdFlagsOps .y = [.rdb .yf] ∧
    ∀ s : State, rdFlags .x s = rdFlagsAxis .x s ∧ rdFlags .y s = rdFlagsAxis .y s) ∧
  ∀ (a : Axis) (s : State), s.cursor ≠ 3 →
    ∃ u v, exec (.rdb a.flagTarget) s = .next u ∧ u.result = some v ∧ rdFlagsAxis a s = (some v, u) ∧
      u.cursor = s.cursor ∧ u.viol = (s.viol || s.cursor != 0) ∧
      (s.cursor ≠ 0 → u.violations = s.violations ++ [.v3])

/-- R116: `WRPRESET` sends a byte-pointer reset and the low byte, per axis, X first: it runs that expansion and adds the traces
of its writes; mid-cycle it is marked. -/
def Obligations.WrpresetSendsOneByteAfterEachReset : Prop :=
  ∀ v : Nat, wrPresetOps .x v = [.wrb .xc 0x01, .wrb .xd (BitVec.ofNat 8 v)] ∧
    wrPresetOps .y v = [.wrb .yc 0x01, .wrb .yd (BitVec.ofNat 8 v)] ∧
    wrPresetOps .both v = wrPresetOps .x v ++ wrPresetOps .y v ∧
    (∀ (sel : Selector) (s : State), wrPreset sel v s = issueAll (wrPresetOps sel v) s) ∧
    (∀ (sel : Selector) (s : State), s.cursor ≠ 3 →
      (wrPreset sel v s).cursor = s.cursor ∧ (wrPreset sel v s).viol = (s.viol || s.cursor != 0) ∧
        (wrPreset sel v s).refused = s.refused ∧ (wrPreset sel v s).params = s.params) ∧
    ∀ s : State, s.cursor ≠ 3 →
      (wrPreset .x v s).trace =
        s.trace ++ writeTrace s.params .xc 0x01 ++ writeTrace s.params .xd (BitVec.ofNat 8 v) ∧
      (wrPreset .y v s).trace =
        s.trace ++ writeTrace s.params .yc 0x01 ++ writeTrace s.params .yd (BitVec.ofNat 8 v) ∧
      (wrPreset .both v s).trace =
        s.trace ++ writeTrace s.params .xc 0x01 ++ writeTrace s.params .xd (BitVec.ofNat 8 v) ++
          writeTrace s.params .yc 0x01 ++ writeTrace s.params .yd (BitVec.ofNat 8 v)

/-- R120: after `SETCNT` returns, whatever it returned, the controller is idle, if it was at entry. What it returns: on one
axis, whether the value its three reads sample after the load is the value loaded (R118); on both, the AND of the two
results, X first (R119). -/
def Obligations.SetcntLeavesTheControllerIdle : Prop :=
  (∀ (sel : Selector) (v : Nat) (s : State), v < 2 ^ 24 → s.cursor = 0 →
    ∃ r, (setCnt sel v s).1 = some r ∧ (setCnt sel v s).2.cursor = 0 ∧ (setCnt sel v s).2.pins.csN = .high ∧
      (setCnt sel v s).2.viol = s.viol ∧ (setCnt sel v s).2.refused = s.refused) ∧
  (∀ (a : Axis) (w : U24) (s : State), s.cursor = 0 →
    ∃ u0 u1 u2 u3 b0 b1 b2,
      u0 = issueAll
        [ .wrb a.commandTarget 0x01, .wrb a.dataTarget (w.extractLsb' 0 8), .wrb a.dataTarget (w.extractLsb' 8 8),
          .wrb a.dataTarget (w.extractLsb' 16 8), .wrb a.commandTarget 0x08, .wrb a.commandTarget 0x11 ] s ∧
      exec (.rdb a.dataTarget) u0 = .next u1 ∧ exec (.rdb a.dataTarget) u1 = .next u2 ∧
      exec (.rdb a.dataTarget) u2 = .next u3 ∧
      u1.result = some b0 ∧ u2.result = some b1 ∧ u3.result = some b2 ∧
      setCntAxis a w s =
        (some (decide (b0.setWidth 24 ||| (b1.setWidth 24 <<< 8) ||| (b2.setWidth 24 <<< 16) = w)), u3)) ∧
  (∀ (v : Nat) (s : State), v < 2 ^ 24 → s.cursor = 0 →
    setCnt .x v s = setCntAxis .x (BitVec.ofNat 24 v) s ∧ setCnt .y v s = setCntAxis .y (BitVec.ofNat 24 v) s ∧
    ∃ rx ry sx sy, setCnt .x v s = (some rx, sx) ∧ setCnt .y v sx = (some ry, sy) ∧
      setCnt .both v s = (some (rx && ry), sy))

/-- R118: `SETCNT` refuses a value of 2^24 or more and issues no operation. -/
def Obligations.SetcntRefusesAWideValue : Prop :=
  ∀ (sel : Selector) (v : Nat) (s : State), 2 ^ 24 ≤ v →
    setCntOps sel v = [] ∧ setCnt sel v s =
      (none, { s with refused := true, refusals := s.refusals ++ [.valueTooWide], result := none })

/-- With the reference chip attached, `SETCNT` on either axis returns true, and the counter and the output latch of that
axis hold the value. A claim about the reference chip, which is no model of the physical one (R125). -/
def Obligations.SetcntReadsBackUnderTheReferenceChip : Prop :=
  ∀ (a : Axis) (v : U24) (s : State) (c : RefChip), s.cursor = 0 → s.pins.wrN = .high → s.pins.rdN = .high →
    s.chip = some c →
      ∃ u c', setCntAxis a v s = (some true, u) ∧ u.chip = some c' ∧ (c'.axis a).cntr = v ∧ (c'.axis a).ol = v ∧
        c'.envFault = c.envFault ∧ u.viol = s.viol ∧ u.refused = s.refused

/-- R122: the 22 writes of `INIT`: the two disables first, the two enables last, no other I/O-control command between; it
returns success and ends with the strobes high, `DIR` output and the cursor as it was. -/
def Obligations.InitDisablesFirstAndEnablesLast : Prop :=
  ∀ (cfgX cfgY : EncoderConfig),
    ∃ mid : List (Target × Byte),
      initOps cfgX cfgY =
        [.wrb .xc (0x40 ||| Config.iorDisable.setWidth 8), .wrb .yc (0x40 ||| Config.iorDisable.setWidth 8)] ++
          writes mid ++
          [.wrb .xc (0x40 ||| Config.iorEnable.setWidth 8), .wrb .yc (0x40 ||| Config.iorEnable.setWidth 8)] ∧
      mid.length = 18 ∧
      (∀ p ∈ mid, p.1.cls = .command → cmdSel p.2 ≠ 0b10) ∧
      ∀ s : State, s.cursor ≠ 3 →
        (initSession cfgX cfgY s).1 = true ∧ (initSession cfgX cfgY s).2.cursor = s.cursor ∧
        (initSession cfgX cfgY s).2.pins.dir = .output ∧ (initSession cfgX cfgY s).2.pins.booted ∧
        (initSession cfgX cfgY s).2.viol = (s.viol || s.cursor != 0)

/-! ### The reference chip -/

/-- R128: a data write under the reference chip stores at the byte pointer and advances it; a fourth byte sets
`ENVFAULT` and changes neither. -/
def Obligations.ChipStoresADataWriteAtItsBytePointer : Prop :=
  ∀ (a : Axis) (d : Byte) (s : State) (c : RefChip), s.cursor ≠ 3 → s.pins.wrN = .high → s.pins.rdN = .high →
    s.chip = some c →
      ∃ u c', exec (.wrb a.dataTarget d) s = .next u ∧ u.chip = some c' ∧
        ((c.axis a).bp = 3 → c' = { c with envFault := true }) ∧
        ((c.axis a).bp ≠ 3 → c'.envFault = c.envFault ∧ c'.flagsAfterReset = c.flagsAfterReset ∧
          c'.axis a =
            { c.axis a with pr := (c.axis a).pr.set (c.axis a).bp d, bp := (c.axis a).bp + 1 } ∧
          ∀ b, b ≠ a → c'.axis b = c.axis b)

/-- R129: a data read under the reference chip samples the output-latch byte at the byte pointer and advances it; past the
last byte it sets `ENVFAULT`, and nothing is said of the byte. -/
def Obligations.ChipAnswersADataReadFromItsLatch : Prop :=
  ∀ (a : Axis) (s : State) (c : RefChip), s.cursor ≠ 3 → s.pins.wrN = .high → s.pins.rdN = .high →
    s.chip = some c →
      ∃ u c', exec (.rdb a.dataTarget) s = .next u ∧ u.chip = some c' ∧
        ((c.axis a).bp = 0 → u.result = some ((c.axis a).ol.extractLsb' 0 8)) ∧
        ((c.axis a).bp = 1 → u.result = some ((c.axis a).ol.extractLsb' 8 8)) ∧
        ((c.axis a).bp = 2 → u.result = some ((c.axis a).ol.extractLsb' 16 8)) ∧
        ((c.axis a).bp ≠ 3 → (c'.axis a).bp = (c.axis a).bp + 1 ∧ c'.envFault = c.envFault) ∧
        ((c.axis a).bp = 3 → (c'.axis a).bp = 3 ∧ c'.envFault = true) ∧
        (c'.axis a).ol = (c.axis a).ol ∧ (c'.axis a).cntr = (c.axis a).cntr ∧ ∀ b, b ≠ a → c'.axis b = c.axis b

/-- The reload command under the reference chip: its parts apply in the order of R131, so a counter reset and a transfer to
the latch in one byte latch 0. With `A` = 0 it acts on the axis of the target; with `A` = 1 on both axes, which is the spec's
own reading of the source (R130). -/
def Obligations.ChipAppliesReloadCommandsInOrder : Prop :=
  ∀ (a : Axis) (A : BitVec 1) (f : BitVec 5) (s : State) (c : RefChip), s.cursor ≠ 3 → s.pins.wrN = .high →
    s.pins.rdN = .high → s.chip = some c →
      ∃ u c', exec (.wrb a.commandTarget (commandByte A .rld f)) s = .next u ∧ u.chip = some c' ∧
        c'.envFault = c.envFault ∧ c'.flagsAfterReset = c.flagsAfterReset ∧
        ∀ ax, c'.axis ax =
          if A = 1 ∨ ax = a then
            { c.axis ax with
              bp := if f.getLsbD 0 then 0 else (c.axis ax).bp
              flags := if f.getLsbD 2 then c.flagsAfterReset else (c.axis ax).flags
              cntr :=
                if f.extractLsb' 3 2 = 0b01#2 then join3 (c.axis ax).pr.b0 (c.axis ax).pr.b1 (c.axis ax).pr.b2
                else if f.getLsbD 1 then 0 else (c.axis ax).cntr
              ol :=
                if f.extractLsb' 3 2 = 0b10#2 then (if f.getLsbD 1 then 0 else (c.axis ax).cntr) else (c.axis ax).ol
              psc := if f.extractLsb' 3 2 = 0b11#2 then (c.axis ax).pr.b0 else (c.axis ax).psc }
          else c.axis ax

/-- A command byte for another register than `RLD` is stored whole in that register and has no further effect (R132): on the
axis of the target with `A` = 0, on both axes with `A` = 1, which is the spec's own reading of the source (R130). -/
def Obligations.ChipStoresModeCommandsWhole : Prop :=
  ∀ (a : Axis) (b : Byte) (s : State) (c : RefChip), s.cursor ≠ 3 → s.pins.wrN = .high → s.pins.rdN = .high →
    s.chip = some c → cmdSel b ≠ 0b00 →
      ∃ u c', exec (.wrb a.commandTarget b) s = .next u ∧ u.chip = some c' ∧ c'.envFault = c.envFault ∧
        c'.flagsAfterReset = c.flagsAfterReset ∧
        ∀ ax, c'.axis ax =
          if b.getLsbD 7 = true ∨ ax = a then
            (if cmdSel b = 0b01 then { c.axis ax with cmr := b }
             else if cmdSel b = 0b10 then { c.axis ax with ior := b }
             else { c.axis ax with idr := b })
          else c.axis ax

/-- R133: a flag read under the reference chip returns the flag byte of its axis and moves nothing in the chip. -/
def Obligations.ChipAnswersAFlagReadWithItsFlags : Prop :=
  ∀ (a : Axis) (s : State) (c : RefChip), s.cursor ≠ 3 → s.pins.wrN = .high → s.pins.rdN = .high →
    s.chip = some c →
      ∃ u, exec (.rdb a.flagTarget) s = .next u ∧ u.result = some (c.axis a).flags ∧ u.chip = some c

/-! ### The assembler -/

/-- An immediate from 0 to 255 assembles to the word of its `WRB`; any other is refused (R70). A word of decimal digits, and
`0x` before hexadecimal digits, is the number it spells. That a word that is no integer is refused so too is the model's
choice (log 19). -/
def Obligations.AssembledImmediateIsAByteOrRefused : Prop :=
  (∀ (t : Target) (w : String), t.writable = true →
    (∀ n, integer w = some n → n ≤ 255 → assembleWrb (some t) w = .words [encode (.wrb t (BitVec.ofNat 8 n))]) ∧
    (∀ n, integer w = some n → 255 < n → assembleWrb (some t) w = .refused .immediateRange) ∧
    (integer w = none → assembleWrb (some t) w = .refused .immediateRange)) ∧
  (∀ ds : List (Fin 10), ds ≠ [] →
    integer (String.ofList (ds.map fun d => Char.ofNat (48 + d.val))) =
      some (ds.foldl (fun n d => n * 10 + d.val) 0)) ∧
  (∀ ds : List (Fin 16), ds ≠ [] →
    integer (String.ofList ('0' :: 'x' :: ds.map fun d => Char.ofNat (if d.val < 10 then 48 + d.val else 87 + d.val))) =
      some (ds.foldl (fun n d => n * 16 + d.val) 0))
end

