-- ==== Sys2Proof/Laws/Decode.lean ====
section
/-! SUPPORT. The fields of a word and the word of its fields. -/

namespace Sys2Proof

/-- A request word is its five fields put together. -/
theorem requestWord_of_fields (w : ReqWord) : requestWord w.op w.tgt w.rsv w.mode w.data = w := by
  unfold requestWord ReqWord.op ReqWord.tgt ReqWord.rsv ReqWord.mode ReqWord.data
  ext i hi
  simp only [BitVec.getElem_append, BitVec.getElem_extractLsb']
  split_ifs <;> simp [BitVec.getElem_eq_testBit_toNat] <;> congr 1 <;> omega

/-- The fields of a word put together from fields are those fields. -/
theorem fields_of_requestWord (op tgt : BitVec 3) (rsv mode : BitVec 1) (data : Byte) :
    (requestWord op tgt rsv mode data).op = op ∧ (requestWord op tgt rsv mode data).tgt = tgt ∧
      (requestWord op tgt rsv mode data).rsv = rsv ∧ (requestWord op tgt rsv mode data).mode = mode ∧
      (requestWord op tgt rsv mode data).data = data := by
  refine ⟨?_, ?_, ?_, ?_, ?_⟩ <;>
  · unfold requestWord
    simp only [ReqWord.op, ReqWord.tgt, ReqWord.rsv, ReqWord.mode, ReqWord.data]
    ext i hi
    simp only [BitVec.getElem_extractLsb', BitVec.getLsbD_append]
    split_ifs <;> first | omega | (rw [BitVec.getLsbD_eq_getElem (by omega)]; congr 1; omega)

/-- A command byte is its three fields put together. -/
theorem commandByte_of_fields : ∀ b : Byte, commandByte (cmdA b) (decodeSel (cmdSel b)) (cmdF b) = b := by decide

theorem decodeTarget_code (t : Target) : decodeTarget t.code = some t := by cases t <;> rfl

theorem code_of_decodeTarget : ∀ (c : BitVec 3) (t : Target), decodeTarget c = some t → t.code = c := by decide

theorem decodeMode_mode (m : Dir) : decodeMode m.mode = m := by cases m <;> rfl

theorem decodeSel_sel (r : CommandReg) : decodeSel r.sel = r := by cases r <;> rfl

end Sys2Proof
end

