-- ==== Sys2Proof/Laws/State.lean ====
section
/-! SUPPORT. One lemma for each field and each update of the state, and for the events on the lines. -/

namespace Sys2Proof.Machine

/-! ### One event -/

@[simp] theorem State.emit_pins (e : Event) (s : State) : (s.emit e).pins = e.apply s.pins := rfl
@[simp] theorem State.emit_cursor (e : Event) (s : State) : (s.emit e).cursor = s.cursor := rfl
@[simp] theorem State.emit_viol (e : Event) (s : State) : (s.emit e).viol = s.viol := rfl
@[simp] theorem State.emit_refused (e : Event) (s : State) : (s.emit e).refused = s.refused := rfl
@[simp] theorem State.emit_cycleAxis (e : Event) (s : State) : (s.emit e).cycleAxis = s.cycleAxis := rfl
@[simp] theorem State.emit_violations (e : Event) (s : State) : (s.emit e).violations = s.violations := rfl
@[simp] theorem State.emit_refusals (e : Event) (s : State) : (s.emit e).refusals = s.refusals := rfl
@[simp] theorem State.emit_trace (e : Event) (s : State) : (s.emit e).trace = s.trace ++ [e] := rfl
@[simp] theorem State.emit_result (e : Event) (s : State) : (s.emit e).result = s.result := rfl
@[simp] theorem State.emit_chip (e : Event) (s : State) : (s.emit e).chip = s.chip.map (·.react s.params s.pins (e.apply s.pins)) := rfl
@[simp] theorem State.emit_pending (e : Event) (s : State) : (s.emit e).pending = s.pending := rfl
@[simp] theorem State.emit_draws (e : Event) (s : State) : (s.emit e).draws = s.draws := rfl
@[simp] theorem State.emit_params (e : Event) (s : State) : (s.emit e).params = s.params := rfl

/-! ### The sticky marks -/

@[simp] theorem State.raiseViolation_pins (v : Violation) (s : State) : (s.raiseViolation v).pins = s.pins := rfl
@[simp] theorem State.raiseViolation_cursor (v : Violation) (s : State) : (s.raiseViolation v).cursor = s.cursor := rfl
@[simp] theorem State.raiseViolation_viol (v : Violation) (s : State) : (s.raiseViolation v).viol = true := rfl
@[simp] theorem State.raiseViolation_refused (v : Violation) (s : State) : (s.raiseViolation v).refused = s.refused := rfl
@[simp] theorem State.raiseViolation_cycleAxis (v : Violation) (s : State) : (s.raiseViolation v).cycleAxis = s.cycleAxis := rfl
@[simp] theorem State.raiseViolation_violations (v : Violation) (s : State) : (s.raiseViolation v).violations = s.violations ++ [v] := rfl
@[simp] theorem State.raiseViolation_refusals (v : Violation) (s : State) : (s.raiseViolation v).refusals = s.refusals := rfl
@[simp] theorem State.raiseViolation_trace (v : Violation) (s : State) : (s.raiseViolation v).trace = s.trace := rfl
@[simp] theorem State.raiseViolation_result (v : Violation) (s : State) : (s.raiseViolation v).result = s.result := rfl
@[simp] theorem State.raiseViolation_chip (v : Violation) (s : State) : (s.raiseViolation v).chip = s.chip := rfl
@[simp] theorem State.raiseViolation_pending (v : Violation) (s : State) : (s.raiseViolation v).pending = s.pending := rfl
@[simp] theorem State.raiseViolation_draws (v : Violation) (s : State) : (s.raiseViolation v).draws = s.draws := rfl
@[simp] theorem State.raiseViolation_params (v : Violation) (s : State) : (s.raiseViolation v).params = s.params := rfl
@[simp] theorem State.violateIf_pins (c : Bool) (v : Violation) (s : State) : (s.violateIf c v).pins = s.pins := by
  cases c <;> rfl
@[simp] theorem State.violateIf_cursor (c : Bool) (v : Violation) (s : State) : (s.violateIf c v).cursor = s.cursor := by
  cases c <;> rfl
@[simp] theorem State.violateIf_viol (c : Bool) (v : Violation) (s : State) : (s.violateIf c v).viol = (s.viol || c) := by
  cases c <;> simp [State.violateIf]
@[simp] theorem State.violateIf_refused (c : Bool) (v : Violation) (s : State) : (s.violateIf c v).refused = s.refused := by
  cases c <;> rfl
@[simp] theorem State.violateIf_cycleAxis (c : Bool) (v : Violation) (s : State) : (s.violateIf c v).cycleAxis = s.cycleAxis := by
  cases c <;> rfl
@[simp] theorem State.violateIf_violations (c : Bool) (v : Violation) (s : State) : (s.violateIf c v).violations = s.violations ++ (if c then [v] else []) := by
  cases c <;> simp [State.violateIf]
@[simp] theorem State.violateIf_refusals (c : Bool) (v : Violation) (s : State) : (s.violateIf c v).refusals = s.refusals := by
  cases c <;> rfl
@[simp] theorem State.violateIf_trace (c : Bool) (v : Violation) (s : State) : (s.violateIf c v).trace = s.trace := by
  cases c <;> rfl
@[simp] theorem State.violateIf_result (c : Bool) (v : Violation) (s : State) : (s.violateIf c v).result = s.result := by
  cases c <;> rfl
@[simp] theorem State.violateIf_chip (c : Bool) (v : Violation) (s : State) : (s.violateIf c v).chip = s.chip := by
  cases c <;> rfl
@[simp] theorem State.violateIf_pending (c : Bool) (v : Violation) (s : State) : (s.violateIf c v).pending = s.pending := by
  cases c <;> rfl
@[simp] theorem State.violateIf_draws (c : Bool) (v : Violation) (s : State) : (s.violateIf c v).draws = s.draws := by
  cases c <;> rfl
@[simp] theorem State.violateIf_params (c : Bool) (v : Violation) (s : State) : (s.violateIf c v).params = s.params := by
  cases c <;> rfl
@[simp] theorem State.raiseRefused_pins (r : RefusalReason) (s : State) : (s.raiseRefused r).pins = s.pins := rfl
@[simp] theorem State.raiseRefused_cursor (r : RefusalReason) (s : State) : (s.raiseRefused r).cursor = s.cursor := rfl
@[simp] theorem State.raiseRefused_viol (r : RefusalReason) (s : State) : (s.raiseRefused r).viol = s.viol := rfl
@[simp] theorem State.raiseRefused_refused (r : RefusalReason) (s : State) : (s.raiseRefused r).refused = true := rfl
@[simp] theorem State.raiseRefused_cycleAxis (r : RefusalReason) (s : State) : (s.raiseRefused r).cycleAxis = s.cycleAxis := rfl
@[simp] theorem State.raiseRefused_violations (r : RefusalReason) (s : State) : (s.raiseRefused r).violations = s.violations := rfl
@[simp] theorem State.raiseRefused_refusals (r : RefusalReason) (s : State) : (s.raiseRefused r).refusals = s.refusals ++ [r] := rfl
@[simp] theorem State.raiseRefused_trace (r : RefusalReason) (s : State) : (s.raiseRefused r).trace = s.trace := rfl
@[simp] theorem State.raiseRefused_result (r : RefusalReason) (s : State) : (s.raiseRefused r).result = none := rfl
@[simp] theorem State.raiseRefused_chip (r : RefusalReason) (s : State) : (s.raiseRefused r).chip = s.chip := rfl
@[simp] theorem State.raiseRefused_pending (r : RefusalReason) (s : State) : (s.raiseRefused r).pending = s.pending := rfl
@[simp] theorem State.raiseRefused_draws (r : RefusalReason) (s : State) : (s.raiseRefused r).draws = s.draws := rfl
@[simp] theorem State.raiseRefused_params (r : RefusalReason) (s : State) : (s.raiseRefused r).params = s.params := rfl

/-! ### The result -/

@[simp] theorem State.deliver_pins (r : Option Byte) (s : State) : (s.deliver r).pins = s.pins := rfl
@[simp] theorem State.deliver_cursor (r : Option Byte) (s : State) : (s.deliver r).cursor = s.cursor := rfl
@[simp] theorem State.deliver_viol (r : Option Byte) (s : State) : (s.deliver r).viol = s.viol := rfl
@[simp] theorem State.deliver_refused (r : Option Byte) (s : State) : (s.deliver r).refused = s.refused := rfl
@[simp] theorem State.deliver_cycleAxis (r : Option Byte) (s : State) : (s.deliver r).cycleAxis = s.cycleAxis := rfl
@[simp] theorem State.deliver_violations (r : Option Byte) (s : State) : (s.deliver r).violations = s.violations := rfl
@[simp] theorem State.deliver_refusals (r : Option Byte) (s : State) : (s.deliver r).refusals = s.refusals := rfl
@[simp] theorem State.deliver_trace (r : Option Byte) (s : State) : (s.deliver r).trace = s.trace := rfl
@[simp] theorem State.deliver_result (r : Option Byte) (s : State) : (s.deliver r).result = r := rfl
@[simp] theorem State.deliver_chip (r : Option Byte) (s : State) : (s.deliver r).chip = s.chip := rfl
@[simp] theorem State.deliver_pending (r : Option Byte) (s : State) : (s.deliver r).pending = s.pending := rfl
@[simp] theorem State.deliver_draws (r : Option Byte) (s : State) : (s.deliver r).draws = s.draws := rfl
@[simp] theorem State.deliver_params (r : Option Byte) (s : State) : (s.deliver r).params = s.params := rfl

end Sys2Proof.Machine
end

