-- ==== Sys2Proof/Laws/Encoder.lean ====
section
/-! SUPPORT. The encoder functions: what they return, and what delivering it does. -/

namespace Sys2Proof.Machine

/-- A flag value that fits is OR'd with the constant. -/
theorem encodeFlags_fits (m : Byte) (f : Nat) (h : f ≤ 0x1F) : encodeFlags m f = .ok (m ||| BitVec.ofNat 8 f) :=
  if_neg (Nat.not_lt.mpr h)

/-- A flag value that does not fit is refused. -/
theorem encodeFlags_wide (m : Byte) (f : Nat) (h : 0x1F < f) : encodeFlags m f = .error .flagsTooWide := if_pos h

@[simp] theorem State.answerEncoder_ok (b : Byte) (s : State) :
    s.answerEncoder (.ok b) = { s with result := some b } := rfl

@[simp] theorem State.answerEncoder_error (r : RefusalReason) (s : State) :
    s.answerEncoder (.error r) = s.raiseRefused r := rfl

/-- Running the row of a function delivers what the function returns. -/
theorem exec_fnInstr (fn : EncoderFn) (f : Nat) (s : State) :
    exec (fnInstr fn f) s = .next (s.answerEncoder (applyFn fn f)) := by
  cases fn <;> rfl

/-- Every encoder function is `encodeFlags` with its constant. -/
theorem applyFn_eq (fn : EncoderFn) : ∃ m, ∀ f, applyFn fn f = encodeFlags m f := by
  cases fn <;> exact ⟨_, fun _ => rfl⟩

end Sys2Proof.Machine
end

