-- ==== Sys2Proof/Laws/Ops.lean ====
section
/-! SUPPORT. What the shared operations can do, said once: running events, sampling, the cycle check and the closure. -/

namespace Sys2Proof.Machine

/-! ### Running events -/

/-- The reference chip after a run of events that starts from lines `l`. -/
def chipReplay (p : Params) (l : Pins) : List Event → RefChip → RefChip
  | [], c => c
  | e :: es, c => chipReplay p (e.apply l) es (c.react p l (e.apply l))

@[simp] theorem State.emitAll_pins (es : List Event) (s : State) : (s.emitAll es).pins = replay s.pins es := by
  induction es generalizing s with
  | nil => rfl
  | cons e es ih => simp [State.emitAll, ih, replay]

@[simp] theorem State.emitAll_cursor (es : List Event) (s : State) : (s.emitAll es).cursor = s.cursor := by
  induction es generalizing s with
  | nil => rfl
  | cons e es ih => simp [State.emitAll, ih]

@[simp] theorem State.emitAll_viol (es : List Event) (s : State) : (s.emitAll es).viol = s.viol := by
  induction es generalizing s with
  | nil => rfl
  | cons e es ih => simp [State.emitAll, ih]

@[simp] theorem State.emitAll_refused (es : List Event) (s : State) : (s.emitAll es).refused = s.refused := by
  induction es generalizing s with
  | nil => rfl
  | cons e es ih => simp [State.emitAll, ih]

@[simp] theorem State.emitAll_cycleAxis (es : List Event) (s : State) : (s.emitAll es).cycleAxis = s.cycleAxis := by
  induction es generalizing s with
  | nil => rfl
  | cons e es ih => simp [State.emitAll, ih]

@[simp] theorem State.emitAll_violations (es : List Event) (s : State) : (s.emitAll es).violations = s.violations := by
  induction es generalizing s with
  | nil => rfl
  | cons e es ih => simp [State.emitAll, ih]

@[simp] theorem State.emitAll_refusals (es : List Event) (s : State) : (s.emitAll es).refusals = s.refusals := by
  induction es generalizing s with
  | nil => rfl
  | cons e es ih => simp [State.emitAll, ih]

@[simp] theorem State.emitAll_trace (es : List Event) (s : State) : (s.emitAll es).trace = s.trace ++ es := by
  induction es generalizing s with
  | nil => simp [State.emitAll]
  | cons e es ih => simp [State.emitAll, ih]

@[simp] theorem State.emitAll_result (es : List Event) (s : State) : (s.emitAll es).result = s.result := by
  induction es generalizing s with
  | nil => rfl
  | cons e es ih => simp [State.emitAll, ih]

/-- The chip after a run of events is the chip that reacted to each of them. -/
theorem State.emitAll_chip (es : List Event) (s : State) :
    (s.emitAll es).chip = s.chip.map (chipReplay s.params s.pins es) := by
  induction es generalizing s with
  | nil => cases h : s.chip <;> simp [State.emitAll, chipReplay, h]
  | cons e es ih => simp [State.emitAll, ih, chipReplay, Function.comp_def]

@[simp] theorem State.emitAll_pending (es : List Event) (s : State) : (s.emitAll es).pending = s.pending := by
  induction es generalizing s with
  | nil => rfl
  | cons e es ih => simp [State.emitAll, ih]

@[simp] theorem State.emitAll_draws (es : List Event) (s : State) : (s.emitAll es).draws = s.draws := by
  induction es generalizing s with
  | nil => rfl
  | cons e es ih => simp [State.emitAll, ih]

@[simp] theorem State.emitAll_params (es : List Event) (s : State) : (s.emitAll es).params = s.params := by
  induction es generalizing s with
  | nil => rfl
  | cons e es ih => simp [State.emitAll, ih]

/-- With no chip attached, events attach none. -/
theorem State.emitAll_noChip (es : List Event) (s : State) (h : s.chip = none) : (s.emitAll es).chip = none := by
  simp [State.emitAll_chip, h]

theorem replay_append (l : Pins) (es fs : List Event) : replay l (es ++ fs) = replay (replay l es) fs := by
  induction es generalizing l with
  | nil => rfl
  | cons e es ih => exact ih (e.apply l)

/-- The direction switch moves only the mode of the data lines and the data latch. -/
theorem dirSwitch_control (p : Params) (m : Dir) (l : Pins) :
    (replay l (dirSwitch p m)).csN = l.csN ∧ (replay l (dirSwitch p m)).wrN = l.wrN ∧
      (replay l (dirSwitch p m)).rdN = l.rdN ∧ (replay l (dirSwitch p m)).cd = l.cd ∧
      (replay l (dirSwitch p m)).xy = l.xy := ⟨rfl, rfl, rfl, rfl, rfl⟩

/-! ### Sampling -/

@[simp] theorem State.sample_pins (s : State) : s.sample.2.pins = s.pins := by
  unfold State.sample
  cases h : s.chip <;> simp [h, Event.apply]

@[simp] theorem State.sample_cursor (s : State) : s.sample.2.cursor = s.cursor := by
  unfold State.sample
  cases h : s.chip <;> simp [h]

@[simp] theorem State.sample_viol (s : State) : s.sample.2.viol = s.viol := by
  unfold State.sample
  cases h : s.chip <;> simp [h]

@[simp] theorem State.sample_refused (s : State) : s.sample.2.refused = s.refused := by
  unfold State.sample
  cases h : s.chip <;> simp [h]

@[simp] theorem State.sample_cycleAxis (s : State) : s.sample.2.cycleAxis = s.cycleAxis := by
  unfold State.sample
  cases h : s.chip <;> simp [h]

@[simp] theorem State.sample_violations (s : State) : s.sample.2.violations = s.violations := by
  unfold State.sample
  cases h : s.chip <;> simp [h]

@[simp] theorem State.sample_refusals (s : State) : s.sample.2.refusals = s.refusals := by
  unfold State.sample
  cases h : s.chip <;> simp [h]

@[simp] theorem State.sample_trace (s : State) : s.sample.2.trace = s.trace ++ [.sample] := by
  unfold State.sample
  cases h : s.chip <;> simp [h]

@[simp] theorem State.sample_result (s : State) : s.sample.2.result = s.result := by
  unfold State.sample
  cases h : s.chip <;> simp [h]

/-- Reading the data lines back gives the byte driven on them: line `Di` carries bit `i` both ways (20_memory.md R41). -/
@[simp] theorem byteOfLines_dataLevel : ∀ b : Byte, byteOfLines (dataLevel b) = b := by decide

/-- While `DIR` is `Input` the data lines carry what the environment drives, and so does the byte read off them. -/
theorem byteOfLines_input (p : Pins) (env : Byte) (h : p.dir = .input) :
    byteOfLines (fun i => p.line env (.d i)) = env := by
  rw [show (fun i => p.line env (.d i)) = dataLevel env by funext i; simp [Pins.line, h]]
  exact byteOfLines_dataLevel env

/-- Sampling with the chip attached: the chip answers on the lines as they stand. -/
theorem State.sample_chip (s : State) (c : RefChip) (h : s.chip = some c) :
    s.sample.1 = ((c.react s.params s.pins s.pins).answer s.params s.pins s.draw).1 ∧
      s.sample.2.chip =
        some ((c.react s.params s.pins s.pins).answer s.params s.pins s.draw).2 := by
  simp [State.sample, h, Event.apply]

/-- Sampling with no chip attached draws from the bus oracle. -/
theorem State.sample_open (s : State) (h : s.chip = none) :
    s.sample.1 = s.draw ∧ s.sample.2.chip = none := by
  simp [State.sample, h]

@[simp] theorem State.sample_pending (s : State) : s.sample.2.pending = s.pending := by
  unfold State.sample
  cases h : s.chip <;> simp [h]

@[simp] theorem State.sample_draws (s : State) : s.sample.2.draws = s.draws + 1 := by
  unfold State.sample
  cases h : s.chip <;> simp [h]

@[simp] theorem State.sample_params (s : State) : s.sample.2.params = s.params := by
  unfold State.sample
  cases h : s.chip <;> simp [h]

/-! ### The cycle check and the closure -/

@[simp] theorem checkCycle_pins (t : Target) (s : State) : (checkCycle t s).pins = s.pins := by
  unfold checkCycle
  split_ifs <;> simp

@[simp] theorem checkCycle_cursor (t : Target) (s : State) : (checkCycle t s).cursor = s.cursor := by
  unfold checkCycle
  split_ifs <;> simp

@[simp] theorem checkCycle_refused (t : Target) (s : State) : (checkCycle t s).refused = s.refused := by
  unfold checkCycle
  split_ifs <;> simp

@[simp] theorem checkCycle_refusals (t : Target) (s : State) : (checkCycle t s).refusals = s.refusals := by
  unfold checkCycle
  split_ifs <;> simp

@[simp] theorem checkCycle_trace (t : Target) (s : State) : (checkCycle t s).trace = s.trace := by
  unfold checkCycle
  split_ifs <;> simp

@[simp] theorem checkCycle_result (t : Target) (s : State) : (checkCycle t s).result = s.result := by
  unfold checkCycle
  split_ifs <;> simp

@[simp] theorem checkCycle_chip (t : Target) (s : State) : (checkCycle t s).chip = s.chip := by
  unfold checkCycle
  split_ifs <;> simp

@[simp] theorem checkCycle_pending (t : Target) (s : State) : (checkCycle t s).pending = s.pending := by
  unfold checkCycle
  split_ifs <;> simp

@[simp] theorem checkCycle_draws (t : Target) (s : State) : (checkCycle t s).draws = s.draws := by
  unfold checkCycle
  split_ifs <;> simp

@[simp] theorem checkCycle_params (t : Target) (s : State) : (checkCycle t s).params = s.params := by
  unfold checkCycle
  split_ifs <;> simp

@[simp] theorem close_viol (t : Target) (s : State) : (close t s).viol = s.viol := by
  unfold close
  split_ifs <;> simp

@[simp] theorem close_refused (t : Target) (s : State) : (close t s).refused = s.refused := by
  unfold close
  split_ifs <;> simp

@[simp] theorem close_cycleAxis (t : Target) (s : State) : (close t s).cycleAxis = s.cycleAxis := by
  unfold close
  split_ifs <;> simp

@[simp] theorem close_violations (t : Target) (s : State) : (close t s).violations = s.violations := by
  unfold close
  split_ifs <;> simp

@[simp] theorem close_refusals (t : Target) (s : State) : (close t s).refusals = s.refusals := by
  unfold close
  split_ifs <;> simp

@[simp] theorem close_result (t : Target) (s : State) : (close t s).result = s.result := by
  unfold close
  split_ifs <;> simp

@[simp] theorem close_pending (t : Target) (s : State) : (close t s).pending = s.pending := by
  unfold close
  split_ifs <;> simp

@[simp] theorem close_draws (t : Target) (s : State) : (close t s).draws = s.draws := by
  unfold close
  split_ifs <;> simp

@[simp] theorem close_params (t : Target) (s : State) : (close t s).params = s.params := by
  unfold close
  split_ifs <;> simp

/-- The closure a read takes (42_transaction_engine.md R101). -/
def closureOf (t : Target) (cursor : BitVec 2) : Event :=
  if t.cls = .flags ∨ cursor = 2 then fullClosure else partialClosure

@[simp] theorem close_trace (t : Target) (s : State) : (close t s).trace = s.trace ++ [closureOf t s.cursor] := by
  unfold close closureOf
  split_ifs <;> simp_all

@[simp] theorem close_pins (t : Target) (s : State) : (close t s).pins = (closureOf t s.cursor).apply s.pins := by
  unfold close closureOf
  split_ifs <;> simp_all

theorem close_chip (t : Target) (s : State) :
    (close t s).chip =
      s.chip.map (·.react s.params s.pins ((closureOf t s.cursor).apply s.pins)) := by
  unfold close closureOf
  split_ifs <;> simp_all

theorem close_cursor (t : Target) (s : State) :
    (close t s).cursor = if t.cls = .flags then s.cursor else if s.cursor = 2 then 0 else s.cursor + 1 := by
  unfold close
  split_ifs <;> simp_all

/-! ### Operations on a legal state -/

theorem State.operate_legal (f : State → State) (s : State) (h : s.cursor ≠ 3) : s.operate f = f s := by
  simp_all [State.operate, State.cursorLegal]

theorem State.operate_illFormed (f : State → State) (s : State) (h : s.cursor = 3) :
    s.operate f = s.raiseRefused .cursorIllFormed := by
  simp [State.operate, State.cursorLegal, h]

/-- Every instruction answers a next state: the meaning never stops. -/
theorem exec_next (i : Instr) (s : State) : ∃ t, exec i s = .next t := by
  cases i with
  | wrb t d => show ∃ u, execWrb t d s = .next u; unfold execWrb; split_ifs <;> exact ⟨_, rfl⟩
  | rdb t => show ∃ u, execRdb t s = .next u; unfold execRdb; split_ifs <;> exact ⟨_, rfl⟩
  | _ => exact ⟨_, rfl⟩

end Sys2Proof.Machine
end

