-- ==== Sys2Proof/Laws/RefChip.lean ====
section
/-! SUPPORT. The reference chip's reactions: when it does nothing, and what it does in a `WRB` or an `RDB` that starts with
both strobes high. -/

namespace Sys2Proof.Machine

@[simp] theorem RefChip.faultIf_false (c : RefChip) : c.faultIf false = c := by
  cases c; simp [RefChip.faultIf]

theorem RefChip.faultIf_true (c : RefChip) : c.faultIf true = { c with envFault := true } := by
  cases c; simp [RefChip.faultIf]

/-- A strobe that does not change its level does not rise. -/
theorem strobeRises_same (cs l : Level) : strobeRises cs l l = false := by cases cs <;> cases l <;> rfl

/-- The chip does nothing at an event that raises no strobe and makes no contention. -/
theorem RefChip.react_quiet (p : Params) (old new : Pins) (c : RefChip) (hw : new.wrN = old.wrN)
    (hr : new.rdN = old.rdN) (hd : (new.chipDrives && new.dir = .output) = false) : c.react p old new = c := by
  simp [RefChip.react, hw, hr, strobeRises_same, hd]

/-- The chip does nothing at an event between lines whose read strobe is high that does not raise the write strobe. -/
theorem RefChip.react_readHigh (p : Params) (old new : Pins) (c : RefChip) (ho : old.rdN = .high)
    (hn : new.rdN = .high) (hw : strobeRises old.csN old.wrN new.wrN = false) : c.react p old new = c := by
  simp [RefChip.react, ho, hn, hw, strobeRises_same, Pins.chipDrives]

/-- A direction switch with the read strobe high is nothing to the chip. -/
theorem chipReplay_dirSwitch (p : Params) (m : Dir) (l : Pins) (c : RefChip) (hr : l.rdN = .high) :
    chipReplay p l (dirSwitch p m) c = c := by
  simp [dirSwitch, chipReplay, Event.apply, RefChip.react_readHigh, hr, strobeRises_same]

/-- What the chip sees of a whole `WRB` that starts with both strobes high: one write, of the byte to the target. -/
theorem chipReplay_writeTrace (p : Params) (t : Target) (d : Byte) (l : Pins) (c : RefChip) (hw : l.wrN = .high)
    (hr : l.rdN = .high) :
    chipReplay p l (writeTrace p t d) c = c.seeWrite p (replay l (writeTrace p t d)) := by
  simp [writeTrace, dirSwitch, chipReplay, replay, pattern, Event.apply, Drive.apply, RefChip.react, hw, hr,
    strobeRises, Pins.chipDrives]

/-- The opening of an `RDB` that starts with both strobes high is nothing to the chip. -/
theorem chipReplay_readOpening (p : Params) (t : Target) (l : Pins) (c : RefChip) (hw : l.wrN = .high)
    (hr : l.rdN = .high) : chipReplay p l (readOpening p t) c = c := by
  simp [readOpening, dirSwitch, chipReplay, pattern, Event.apply, Drive.apply, RefChip.react, hw, hr, strobeRises,
    Pins.chipDrives]

/-- The axis the select line picks under a target's pattern is the target's axis. -/
theorem selectedAxis_pattern (p : Params) (t : Target) (l : Pins) (h : l.xy = p.xy t) : selectedAxis p l = t.axis := by
  unfold selectedAxis
  rw [h]
  unfold Params.xy Params.xyY
  cases t <;> cases hx : p.xyX <;> simp [Target.axis, Level.flip]

/-- The command/data line under a target's pattern says whether the target is a data target. -/
theorem cd_pattern (p : Params) (t : Target) : p.cd t = p.cdData ↔ t.cls = .data := by
  unfold Params.cd Params.cdCtrl
  cases t <;> cases hx : p.cdData <;> simp [Target.cls, Level.flip]

/-- One axis after a change of one axis. -/
theorem RefChip.axis_onAxis (a b : Axis) (f : ChipAxis → ChipAxis) (c : RefChip) :
    (c.onAxis a f).axis b = if b = a then f (c.axis b) else c.axis b := by
  cases a <;> cases b <;> rfl

@[simp] theorem RefChip.envFault_onAxis (a : Axis) (f : ChipAxis → ChipAxis) (c : RefChip) :
    (c.onAxis a f).envFault = c.envFault := by cases a <;> rfl

@[simp] theorem RefChip.flagsAfterReset_onAxis (a : Axis) (f : ChipAxis → ChipAxis) (c : RefChip) :
    (c.onAxis a f).flagsAfterReset = c.flagsAfterReset := by cases a <;> rfl

@[simp] theorem RefChip.axis_faultIf (a : Axis) (cond : Bool) (c : RefChip) :
    (c.faultIf cond).axis a = c.axis a := by cases a <;> rfl

@[simp] theorem RefChip.envFault_faultIf (cond : Bool) (c : RefChip) :
    (c.faultIf cond).envFault = (c.envFault || cond) := rfl

/-- Every field of an axis after a reload command, its four parts applied in order. -/
theorem ChipAxis.reload_eq (f : BitVec 5) (fl : Byte) (c : ChipAxis) :
    c.reload f fl =
      { c with
        bp := if f.getLsbD 0 then 0 else c.bp
        flags := if f.getLsbD 2 then fl else c.flags
        cntr :=
          if f.extractLsb' 3 2 = 0b01#2 then join3 c.pr.b0 c.pr.b1 c.pr.b2 else if f.getLsbD 1 then 0 else c.cntr
        ol := if f.extractLsb' 3 2 = 0b10#2 then (if f.getLsbD 1 then 0 else c.cntr) else c.ol
        psc := if f.extractLsb' 3 2 = 0b11#2 then c.pr.b0 else c.psc } := by
  unfold ChipAxis.reload ChipAxis.transfer
  obtain hk | hk | hk | hk :=
      (show ∀ k : BitVec 2, k = 0 ∨ k = 1 ∨ k = 2 ∨ k = 3 by decide) (f.extractLsb' 3 2) <;>
    simp only [hk] <;>
    cases f.getLsbD 0 <;> cases f.getLsbD 1 <;> cases f.getLsbD 2 <;> rfl

end Sys2Proof.Machine
end

