-- ==== Sys2Proof/Laws/Operations.lean ====
section
/-! SUPPORT. The three operations on a legal state, said once: which function each instruction runs, and every field after
`SETDIR`, `WRB` and `RDB`. -/

namespace Sys2Proof.Machine

theorem writable_iff (t : Target) : t.writable = true ↔ t.cls ≠ .flags := by cases t <;> decide

theorem readable_iff (t : Target) : t.readable = true ↔ t.cls ≠ .command := by cases t <;> decide

theorem exec_setdir_legal (m : Dir) (s : State) (h : s.cursor ≠ 3) :
    exec (.setdir m) s = .next (setDirection m s) := by
  rw [show exec (.setdir m) s = .next (s.operate (setDirection m)) from rfl, State.operate_legal _ _ h]

theorem exec_wrb_legal (t : Target) (d : Byte) (s : State) (ht : t.writable = true) (h : s.cursor ≠ 3) :
    exec (.wrb t d) s = .next (writeByte t d s) := by
  rw [show exec (.wrb t d) s = execWrb t d s from rfl, execWrb, if_pos ht, State.operate_legal _ _ h]

theorem exec_rdb_legal (t : Target) (s : State) (ht : t.readable = true) (h : s.cursor ≠ 3) :
    exec (.rdb t) s = .next (readByte t s) := by
  rw [show exec (.rdb t) s = execRdb t s from rfl, execRdb, if_pos ht, State.operate_legal _ _ h]

/-! ### The lines after each trace -/

@[simp] theorem replay_dirSwitch (p : Params) (m : Dir) (l : Pins) :
    replay l (dirSwitch p m) = { l with dir := m, dout := p.neutral } := rfl

@[simp] theorem replay_writeTrace (p : Params) (t : Target) (d : Byte) (l : Pins) :
    replay l (writeTrace p t d) =
      { dir := .output, csN := .high, wrN := .high, rdN := .high, cd := p.cd t, xy := p.xy t, dout := d } := rfl

@[simp] theorem replay_readOpening (p : Params) (t : Target) (l : Pins) :
    replay l (readOpening p t) =
      { l with dir := .input, csN := .low, rdN := .low, cd := p.cd t, xy := p.xy t, dout := p.neutral } := rfl

/-- The nine events of an `RDB` (42_transaction_engine.md R99) at a cursor. -/
def readTrace (p : Params) (t : Target) (cursor : BitVec 2) : List Event :=
  readOpening p t ++ [.sample, closureOf t cursor, .wait (.ns 90)]

/-! ### SETDIR -/


@[simp] theorem setDirection_pins (m : Dir) (s : State) : (setDirection m s).pins = { s.pins with dir := m, dout := s.params.neutral } := by
  simp [setDirection]

@[simp] theorem setDirection_cursor (m : Dir) (s : State) : (setDirection m s).cursor = s.cursor := by
  simp [setDirection]

@[simp] theorem setDirection_viol (m : Dir) (s : State) : (setDirection m s).viol = (s.viol || s.cursor != 0) := by
  simp [setDirection]

@[simp] theorem setDirection_refused (m : Dir) (s : State) : (setDirection m s).refused = s.refused := by
  simp [setDirection]

@[simp] theorem setDirection_cycleAxis (m : Dir) (s : State) : (setDirection m s).cycleAxis = s.cycleAxis := by
  simp [setDirection]

@[simp] theorem setDirection_violations (m : Dir) (s : State) : (setDirection m s).violations = s.violations ++ (if s.cursor != 0 then [.v4] else []) := by
  simp [setDirection]

@[simp] theorem setDirection_refusals (m : Dir) (s : State) : (setDirection m s).refusals = s.refusals := by
  simp [setDirection]

@[simp] theorem setDirection_trace (m : Dir) (s : State) : (setDirection m s).trace = s.trace ++ dirSwitch s.params m := by
  simp [setDirection]

@[simp] theorem setDirection_result (m : Dir) (s : State) : (setDirection m s).result = none := by
  simp [setDirection]

@[simp] theorem setDirection_pending (m : Dir) (s : State) : (setDirection m s).pending = s.pending := by
  simp [setDirection]

@[simp] theorem setDirection_draws (m : Dir) (s : State) : (setDirection m s).draws = s.draws := by
  simp [setDirection]

@[simp] theorem setDirection_params (m : Dir) (s : State) : (setDirection m s).params = s.params := by
  simp [setDirection]

theorem setDirection_chip (m : Dir) (s : State) :
    (setDirection m s).chip = s.chip.map (chipReplay s.params s.pins (dirSwitch s.params m)) := by
  simp [setDirection, State.emitAll_chip]

/-! ### WRB -/

@[simp] theorem writeByte_pins (t : Target) (d : Byte) (s : State) : (writeByte t d s).pins = replay s.pins (writeTrace s.params t d) := by
  simp [writeByte]

@[simp] theorem writeByte_cursor (t : Target) (d : Byte) (s : State) : (writeByte t d s).cursor = s.cursor := by
  simp [writeByte]

@[simp] theorem writeByte_viol (t : Target) (d : Byte) (s : State) : (writeByte t d s).viol = (s.viol || s.cursor != 0) := by
  simp [writeByte]

@[simp] theorem writeByte_refused (t : Target) (d : Byte) (s : State) : (writeByte t d s).refused = s.refused := by
  simp [writeByte]

@[simp] theorem writeByte_cycleAxis (t : Target) (d : Byte) (s : State) : (writeByte t d s).cycleAxis = s.cycleAxis := by
  simp [writeByte]

@[simp] theorem writeByte_violations (t : Target) (d : Byte) (s : State) : (writeByte t d s).violations = s.violations ++ (if s.cursor != 0 then [.v1] else []) := by
  simp [writeByte]

@[simp] theorem writeByte_refusals (t : Target) (d : Byte) (s : State) : (writeByte t d s).refusals = s.refusals := by
  simp [writeByte]

@[simp] theorem writeByte_trace (t : Target) (d : Byte) (s : State) : (writeByte t d s).trace = s.trace ++ writeTrace s.params t d := by
  simp [writeByte]

@[simp] theorem writeByte_result (t : Target) (d : Byte) (s : State) : (writeByte t d s).result = none := by
  simp [writeByte]

@[simp] theorem writeByte_pending (t : Target) (d : Byte) (s : State) : (writeByte t d s).pending = s.pending := by
  simp [writeByte]

@[simp] theorem writeByte_draws (t : Target) (d : Byte) (s : State) : (writeByte t d s).draws = s.draws := by
  simp [writeByte]

@[simp] theorem writeByte_params (t : Target) (d : Byte) (s : State) : (writeByte t d s).params = s.params := by
  simp [writeByte]

theorem writeByte_chip (t : Target) (d : Byte) (s : State) :
    (writeByte t d s).chip = s.chip.map (chipReplay s.params s.pins (writeTrace s.params t d)) := by
  simp [writeByte, State.emitAll_chip]

/-- With both strobes high at its start, a `WRB` is one write to the chip. -/
theorem writeByte_chip_idle (t : Target) (d : Byte) (s : State) (c : RefChip) (hc : s.chip = some c)
    (hw : s.pins.wrN = .high) (hr : s.pins.rdN = .high) :
    (writeByte t d s).chip = some (c.seeWrite s.params (writeByte t d s).pins) := by
  simp [writeByte_chip, hc, chipReplay_writeTrace, hw, hr]

/-! ### RDB -/

/-- The cycle check of a data read (42_transaction_engine.md R104). -/
theorem checkCycle_data (t : Target) (s : State) (h : t.cls = .data) :
    (checkCycle t s).cycleAxis = (if s.cursor = 0 then t.axis else s.cycleAxis) ∧
      (checkCycle t s).viol = (s.viol || (s.cursor != 0 && t.axis != s.cycleAxis)) ∧
      (checkCycle t s).violations =
        s.violations ++ (if s.cursor ≠ 0 ∧ t.axis ≠ s.cycleAxis then [.v2] else []) := by
  unfold checkCycle
  rw [if_pos h]
  by_cases hc : s.cursor = 0
  · simp [hc]
  · have hb : (s.cursor != 0) = true := by simpa using hc
    rw [if_neg hc, if_neg hc, hb]
    refine ⟨by simp, by simp, ?_⟩
    by_cases ha : t.axis = s.cycleAxis <;> simp_all

/-- The cycle check of a flag read (R104). -/
theorem checkCycle_flags (t : Target) (s : State) (h : t.cls = .flags) :
    (checkCycle t s).cycleAxis = s.cycleAxis ∧ (checkCycle t s).viol = (s.viol || s.cursor != 0) ∧
      (checkCycle t s).violations = s.violations ++ (if s.cursor ≠ 0 then [.v3] else []) := by
  unfold checkCycle
  rw [if_neg (by simp [h])]
  simp

@[simp] theorem readByte_pins (t : Target) (s : State) :
    (readByte t s).pins =
      { dir := .input, csN := if t.cls = .flags ∨ s.cursor = 2 then .high else .low, wrN := s.pins.wrN, rdN := .high,
        cd := s.params.cd t, xy := s.params.xy t, dout := s.params.neutral } := by
  simp only [readByte, State.deliver_pins, State.emit_pins, close_pins, State.sample_pins, State.emitAll_pins,
    checkCycle_pins, replay_readOpening, State.sample_cursor, State.emitAll_cursor, checkCycle_cursor, closureOf]
  split_ifs <;> rfl

@[simp] theorem readByte_cursor (t : Target) (s : State) :
    (readByte t s).cursor = if t.cls = .flags then s.cursor else if s.cursor = 2 then 0 else s.cursor + 1 := by
  simp [readByte, close_cursor]

@[simp] theorem readByte_viol (t : Target) (s : State) : (readByte t s).viol = (checkCycle t s).viol := by
  simp [readByte]

@[simp] theorem readByte_refused (t : Target) (s : State) : (readByte t s).refused = s.refused := by
  simp [readByte]

@[simp] theorem readByte_cycleAxis (t : Target) (s : State) : (readByte t s).cycleAxis = (checkCycle t s).cycleAxis := by
  simp [readByte]

@[simp] theorem readByte_violations (t : Target) (s : State) : (readByte t s).violations = (checkCycle t s).violations := by
  simp [readByte]

@[simp] theorem readByte_refusals (t : Target) (s : State) : (readByte t s).refusals = s.refusals := by
  simp [readByte]

@[simp] theorem readByte_trace (t : Target) (s : State) :
    (readByte t s).trace = s.trace ++ readTrace s.params t s.cursor := by
  simp [readByte, readTrace]

@[simp] theorem readByte_pending (t : Target) (s : State) : (readByte t s).pending = s.pending := by
  simp [readByte]

@[simp] theorem readByte_draws (t : Target) (s : State) : (readByte t s).draws = s.draws + 1 := by
  simp [readByte]

@[simp] theorem readByte_params (t : Target) (s : State) : (readByte t s).params = s.params := by
  simp [readByte]

/-- A read gives the host a byte. -/
theorem readByte_result (t : Target) (s : State) : ∃ v, (readByte t s).result = some v := ⟨_, rfl⟩

/-- The draw of a read from the bus oracle: it sees the trace up to event 6 of the read. -/
def readDraw (s : State) (t : Target) : Byte := Config.busOracle (s.trace ++ readOpening s.params t) s.draws

/-- The draw at the `Sample()` of a read. -/
theorem draw_atSample (t : Target) (s : State) :
    ((checkCycle t s).emitAll (readOpening s.params t)).draw = readDraw s t := by
  simp [State.draw, readDraw]

/-- With no chip attached the byte is the draw from the bus oracle. -/
theorem readByte_open (t : Target) (s : State) (h : s.chip = none) :
    (readByte t s).chip = none ∧ (readByte t s).result = some (readDraw s t) := by
  have h0 : ((checkCycle t s).emitAll (readOpening s.params t)).chip = none :=
    State.emitAll_noChip _ _ (by simp [h])
  have h1 := State.sample_open _ h0
  rw [draw_atSample] at h1
  exact ⟨by simp [readByte, close_chip, h1.2], by simp [readByte, h1.1]⟩

/-- The lines of a read at its `Sample()`. -/
def readPins (s : State) (t : Target) : Pins := replay s.pins (readOpening s.params t)

/-- With both strobes high at its start, a read of the chip is one answer and one end of a read. -/
theorem readByte_chip_idle (t : Target) (s : State) (c : RefChip) (hc : s.chip = some c)
    (hw : s.pins.wrN = .high) (hr : s.pins.rdN = .high) :
    (readByte t s).result = some (c.answer s.params (readPins s t) (readDraw s t)).1 ∧
      (readByte t s).chip =
        some ((c.answer s.params (readPins s t) (readDraw s t)).2.seeReadEnd s.params (readPins s t)) := by
  have h0 : ((checkCycle t s).emitAll (readOpening s.params t)).chip = some c := by
    simp [State.emitAll_chip, hc, chipReplay_readOpening, hw, hr]
  have hq : c.react s.params (readPins s t) (readPins s t) = c :=
    RefChip.react_quiet _ _ _ _ rfl rfl (by simp [readPins])
  have h1 := State.sample_chip _ c h0
  simp only [draw_atSample, State.emitAll_params, checkCycle_params, State.emitAll_pins, checkCycle_pins] at h1
  rw [show replay s.pins (readOpening s.params t) = readPins s t from rfl, hq] at h1
  refine ⟨by simp [readByte, h1.1], ?_⟩
  simp [readByte, close_chip, h1.2]
  simp only [closureOf, readPins, replay_readOpening]
  split_ifs <;>
    simp [fullClosure, partialClosure, Event.apply, Drive.apply, RefChip.react, strobeRises, Pins.chipDrives, hw,
      RefChip.seeReadEnd, selectedAxis]

end Sys2Proof.Machine
end

