-- ==== Sys2Proof/Laws/PerInstr.lean ====
section
/-! SUPPORT. A law of every instruction, one lemma a constructor: the word of a well-formed instruction is a word of its own
row of spec/opcode_table.json. -/

namespace Sys2Proof

namespace Laws.TableRow

/-- The bits `match` and `mask` of a row of spec/opcode_table.json; a command byte is its low eight bits. -/
def matchMask : Instr → BitVec 16 × BitVec 16
  | .setdir _ => (0x0000, 0xFEFF)
  | .wrb _ _ => (0x2000, 0xF300)
  | .rdb _ => (0x4000, 0xEBFF)
  | .rldAxis _ => (0x00, 0xE0)
  | .rldBase _ => (0x80, 0xE0)
  | .cmrAxis _ => (0x20, 0xE0)
  | .cmrBase _ => (0xA0, 0xE0)
  | .iorAxis _ => (0x40, 0xE0)
  | .iorBase _ => (0xC0, 0xE0)
  | .idrAxis _ => (0x60, 0xE0)
  | .idrBase _ => (0xE0, 0xE0)

/-- A word falls under a row. -/
def fits (mm : BitVec 16 × BitVec 16) : CodeWord → Prop
  | .req w => w &&& mm.2 = mm.1
  | .cmd b => b.setWidth 16 &&& mm.2 = mm.1

/-- The word of a well-formed instruction falls under its row. -/
def Statement (i : Instr) : Prop := i.wf = true → fits (matchMask i) (encode i)

/-- A command byte keeps its first three bits whatever its flags. -/
theorem commandByte_fits (a : BitVec 1) (r : CommandReg) (f : BitVec 5) :
    (commandByte a r f).setWidth 16 &&& 0xE0 = (commandByte a r 0).setWidth 16 := by
  cases r <;> revert a f <;> decide

theorem setdir (m : Dir) : Statement (.setdir m) := by intro _; cases m <;> rfl

/-- The word of a write keeps its first six bits whatever its data. -/
theorem writeWord_fits (t : Target) (h : t.writable = true) (d : Byte) :
    requestWord 0b001 t.code 0 0 d &&& 0xF300 = 0x2000 := by
  cases t <;> first | exact absurd h (by decide) | (revert d; decide)

theorem wrb (t : Target) (d : Byte) : Statement (.wrb t d) := by
  intro h
  have ht : t.writable = true := by
    cases t <;> first | rfl | exact absurd h (by simp [Instr.wf, Instr.illFormed, Target.writable])
  exact writeWord_fits t ht d

theorem rdb (t : Target) : Statement (.rdb t) := by
  intro h
  cases t <;> first | rfl | exact absurd h (by decide)

theorem rldAxis (f : Nat) : Statement (.rldAxis f) := fun _ => commandByte_fits 0 .rld (BitVec.ofNat 5 f)
theorem rldBase (f : Nat) : Statement (.rldBase f) := fun _ => commandByte_fits 1 .rld (BitVec.ofNat 5 f)
theorem cmrAxis (f : Nat) : Statement (.cmrAxis f) := fun _ => commandByte_fits 0 .cmr (BitVec.ofNat 5 f)
theorem cmrBase (f : Nat) : Statement (.cmrBase f) := fun _ => commandByte_fits 1 .cmr (BitVec.ofNat 5 f)
theorem iorAxis (f : Nat) : Statement (.iorAxis f) := fun _ => commandByte_fits 0 .ior (BitVec.ofNat 5 f)
theorem iorBase (f : Nat) : Statement (.iorBase f) := fun _ => commandByte_fits 1 .ior (BitVec.ofNat 5 f)
theorem idrAxis (f : Nat) : Statement (.idrAxis f) := fun _ => commandByte_fits 0 .idr (BitVec.ofNat 5 f)
theorem idrBase (f : Nat) : Statement (.idrBase f) := fun _ => commandByte_fits 1 .idr (BitVec.ofNat 5 f)

end Laws.TableRow

end Sys2Proof
end

