-- ==== Sys2Proof/Laws/Sequences.lean ====
section
/-! SUPPORT. What the host sequences are made of: the targets of an axis, a run of writes, three data reads, and what one
`WRB` or `RDB` does to an attached reference chip. -/

namespace Sys2Proof.Machine

/-! ### The targets of an axis -/

@[simp] theorem dataTarget_cls (a : Axis) : a.dataTarget.cls = .data := by cases a <;> rfl
@[simp] theorem commandTarget_cls (a : Axis) : a.commandTarget.cls = .command := by cases a <;> rfl
@[simp] theorem flagTarget_cls (a : Axis) : a.flagTarget.cls = .flags := by cases a <;> rfl
@[simp] theorem dataTarget_axis (a : Axis) : a.dataTarget.axis = a := by cases a <;> rfl
@[simp] theorem commandTarget_axis (a : Axis) : a.commandTarget.axis = a := by cases a <;> rfl
@[simp] theorem flagTarget_axis (a : Axis) : a.flagTarget.axis = a := by cases a <;> rfl
@[simp] theorem dataTarget_readable (a : Axis) : a.dataTarget.readable = true := by cases a <;> rfl
@[simp] theorem flagTarget_readable (a : Axis) : a.flagTarget.readable = true := by cases a <;> rfl
@[simp] theorem dataTarget_writable (a : Axis) : a.dataTarget.writable = true := by cases a <;> rfl
@[simp] theorem commandTarget_writable (a : Axis) : a.commandTarget.writable = true := by cases a <;> rfl

/-! ### Reads -/

/-- A read leaves a legal cursor legal. -/
theorem readByte_legal (t : Target) (s : State) (h : s.cursor ≠ 3) : (readByte t s).cursor ≠ 3 := by
  rw [readByte_cursor]
  generalize s.cursor = k at *
  revert k
  split_ifs <;> decide

/-- The cursor after a data read from a known cursor. -/
theorem readByte_data_cursor (t : Target) (s : State) (ht : t.cls = .data) :
    (s.cursor = 0 → (readByte t s).cursor = 1) ∧ (s.cursor = 1 → (readByte t s).cursor = 2) ∧
      (s.cursor = 2 → (readByte t s).cursor = 0) := by
  refine ⟨?_, ?_, ?_⟩ <;> intro h <;> rw [readByte_cursor, h] <;> simp [ht]

/-- A data read that opens a cycle or goes on with one of its own axis raises no violation, and the cycle is of its axis. -/
theorem readByte_data_quiet (t : Target) (s : State) (ht : t.cls = .data)
    (h : s.cursor = 0 ∨ s.cycleAxis = t.axis) :
    (readByte t s).viol = s.viol ∧ (readByte t s).cycleAxis = t.axis := by
  have hd := checkCycle_data t s ht
  rw [readByte_viol, readByte_cycleAxis, hd.1, hd.2.1]
  rcases h with h | h <;> simp [h]

/-! ### Runs of writes -/

theorem issue_wrb (t : Target) (d : Byte) (s : State) (ht : t.writable = true) (h : s.cursor ≠ 3) :
    issue (.wrb t d) s = writeByte t d s := by rw [issue, exec_wrb_legal t d s ht h]

theorem issue_rdb (t : Target) (s : State) (ht : t.readable = true) (h : s.cursor ≠ 3) :
    issue (.rdb t) s = readByte t s := by rw [issue, exec_rdb_legal t s ht h]

/-- What a run of at least one write leaves: the cursor and `REFUSED` as they were, the strobes high and `DIR` output; in
the middle of a cycle it is marked. -/
theorem issueAll_writes (l : List (Target × Byte)) (s : State) (h : s.cursor ≠ 3)
    (hl : ∀ p ∈ l, p.1.writable = true) (hn : l ≠ []) :
    (issueAll (writes l) s).cursor = s.cursor ∧ (issueAll (writes l) s).viol = (s.viol || s.cursor != 0) ∧
      (issueAll (writes l) s).refused = s.refused ∧ (issueAll (writes l) s).pins.dir = .output ∧
      (issueAll (writes l) s).pins.booted := by
  induction l generalizing s with
  | nil => exact absurd rfl hn
  | cons p l ih =>
    have e : issueAll (writes (p :: l)) s = issueAll (writes l) (writeByte p.1 p.2 s) := by
      rw [← issue_wrb p.1 p.2 s (hl p (by simp)) h]; rfl
    rw [e]
    cases l with
    | nil => simp [writes, issueAll]
    | cons q l =>
      obtain ⟨h1, h2, h3, h4⟩ :=
        ih (writeByte p.1 p.2 s) (by simpa using h) (fun q hq => hl q (List.mem_cons_of_mem _ hq)) (by simp)
      exact ⟨by simpa using h1, by rw [h2]; simp, by simpa using h3, h4⟩

/-- What a run of writes adds to the trace: the trace of each in order; the parameters stay. -/
theorem issueAll_writes_trace (l : List (Target × Byte)) (s : State) (h : s.cursor ≠ 3)
    (hl : ∀ p ∈ l, p.1.writable = true) :
    (issueAll (writes l) s).params = s.params ∧
      (issueAll (writes l) s).trace = s.trace ++ l.flatMap fun p => writeTrace s.params p.1 p.2 := by
  induction l generalizing s with
  | nil => simp [writes, issueAll]
  | cons p l ih =>
    have e : issueAll (writes (p :: l)) s = issueAll (writes l) (writeByte p.1 p.2 s) := by
      rw [← issue_wrb p.1 p.2 s (hl p (by simp)) h]; rfl
    obtain ⟨h1, h2⟩ := ih (writeByte p.1 p.2 s) (by simpa using h) fun q hq => hl q (List.mem_cons_of_mem _ hq)
    rw [e, h1, h2]
    simp

/-- A data read of a marked state leaves it marked. -/
theorem readByte_data_marked (t : Target) (s : State) (ht : t.cls = .data) (h : s.viol = true) :
    (readByte t s).viol = true := by
  rw [readByte_viol, (checkCycle_data t s ht).2.1, h]; rfl

theorem setCnt_fits (sel : Selector) (v : Nat) (s : State) (h : v < 2 ^ 24) :
    setCnt sel v s = setCntFits sel (BitVec.ofNat 24 v) s := if_pos h

theorem setCnt_wide (sel : Selector) (v : Nat) (s : State) (h : ¬v < 2 ^ 24) :
    setCnt sel v s = (none, s.raiseRefused .valueTooWide) := if_neg h

/-! ### The reference chip under one operation -/

/-- A `WRB` that starts with both strobes high is one write of its byte to the chip, on the axis of its target. -/
theorem writeByte_chip_write (t : Target) (d : Byte) (s : State) (c : RefChip) (hc : s.chip = some c)
    (hw : s.pins.wrN = .high) (hr : s.pins.rdN = .high) :
    (writeByte t d s).chip =
      some (if t.cls = .data then c.writeData t.axis d else c.writeCommand t.axis d) := by
  rw [writeByte_chip_idle t d s c hc hw hr]
  have hx : selectedAxis s.params (writeByte t d s).pins = t.axis := selectedAxis_pattern _ _ _ (by simp)
  have hcd := cd_pattern s.params t
  simp only [RefChip.seeWrite, hx]
  simp [hcd]

/-- A data read that starts with both strobes high, with the byte pointer at a byte: the byte, and the pointer moves on. -/
theorem readByte_chip_data (t : Target) (s : State) (c : RefChip) (ht : t.cls = .data) (hc : s.chip = some c)
    (hw : s.pins.wrN = .high) (hr : s.pins.rdN = .high) (b : Byte)
    (hb : byteOf (c.axis t.axis).ol (c.axis t.axis).bp = some b) :
    (readByte t s).result = some b ∧ (readByte t s).chip = some (c.onAxis t.axis (·.endRead)) := by
  have h := readByte_chip_idle t s c hc hw hr
  have hx : selectedAxis s.params (readPins s t) = t.axis := selectedAxis_pattern _ _ _ (by simp [readPins])
  have hcd : (readPins s t).cd = s.params.cdData := by simp [readPins, cd_pattern, ht]
  have hd : (readPins s t).chipDrives = true := by simp [readPins, Pins.chipDrives]
  have hi : (readPins s t).dir = .input := by simp [readPins]
  rw [h.1, h.2]
  simp [RefChip.answer, RefChip.seeReadEnd, hx, hcd, hd, hi, hb]

/-- A data read past the last byte: a fault of the environment, and the byte is a draw. -/
theorem readByte_chip_past (t : Target) (s : State) (c : RefChip) (ht : t.cls = .data) (hc : s.chip = some c)
    (hw : s.pins.wrN = .high) (hr : s.pins.rdN = .high)
    (hb : byteOf (c.axis t.axis).ol (c.axis t.axis).bp = none) :
    (readByte t s).result = some (readDraw s t) ∧
      (readByte t s).chip = some ((c.faultIf true).onAxis t.axis (·.endRead)) := by
  have h := readByte_chip_idle t s c hc hw hr
  have hx : selectedAxis s.params (readPins s t) = t.axis := selectedAxis_pattern _ _ _ (by simp [readPins])
  have hcd : (readPins s t).cd = s.params.cdData := by simp [readPins, cd_pattern, ht]
  have hd : (readPins s t).chipDrives = true := by simp [readPins, Pins.chipDrives]
  have hi : (readPins s t).dir = .input := by simp [readPins]
  rw [h.1, h.2]
  simp [RefChip.answer, RefChip.seeReadEnd, hx, hcd, hd, hi, hb]

/-- A flag read that starts with both strobes high: the flag byte, and nothing in the chip moves. -/
theorem readByte_chip_flags (t : Target) (s : State) (c : RefChip) (ht : t.cls = .flags) (hc : s.chip = some c)
    (hw : s.pins.wrN = .high) (hr : s.pins.rdN = .high) :
    (readByte t s).result = some (c.axis t.axis).flags ∧ (readByte t s).chip = some c := by
  have h := readByte_chip_idle t s c hc hw hr
  have hx : selectedAxis s.params (readPins s t) = t.axis := selectedAxis_pattern _ _ _ (by simp [readPins])
  have hcd : (readPins s t).cd ≠ s.params.cdData := by simp [readPins, cd_pattern, ht]
  have hd : (readPins s t).chipDrives = true := by simp [readPins, Pins.chipDrives]
  have hi : (readPins s t).dir = .input := by simp [readPins]
  rw [h.1, h.2]
  simp [RefChip.answer, RefChip.seeReadEnd, hx, hcd, hd, hi]

end Sys2Proof.Machine
end

