-- ==== Sys2Proof/Laws/Step.lean ====
section
/-! SUPPORT. Everything an instruction and a step can do, said once. -/

namespace Sys2Proof.Machine

/-- Everything an instruction can do: be refused, run one of the three operations on a legal state, or hand over the byte
of an encoder function. -/
theorem exec_cases {i : Instr} {s t : State} (h : exec i s = .next t) :
    (∃ r, t = s.raiseRefused r) ∨
    (s.cursor ≠ 3 ∧ ∃ m, i = .setdir m ∧ t = setDirection m s) ∨
    (s.cursor ≠ 3 ∧ ∃ u d, i = .wrb u d ∧ u.writable = true ∧ t = writeByte u d s) ∨
    (s.cursor ≠ 3 ∧ ∃ u, i = .rdb u ∧ u.readable = true ∧ t = readByte u s) ∨
    (∃ b, t = { s with result := some b }) := by
  have hf : ∀ (fn : EncoderFn) (f : Nat), i = fnInstr fn f →
      (∃ r, t = s.raiseRefused r) ∨ (∃ b, t = { s with result := some b }) := by
    rintro fn f rfl
    rw [exec_fnInstr] at h
    cases h
    cases applyFn fn f with
    | ok b => exact .inr ⟨b, rfl⟩
    | error r => exact .inl ⟨r, rfl⟩
  cases i with
  | setdir m =>
    by_cases hc : s.cursor = 3
    · cases h; exact .inl ⟨_, State.operate_illFormed _ _ hc⟩
    · rw [exec_setdir_legal m s hc] at h; cases h; exact .inr (.inl ⟨hc, m, rfl, rfl⟩)
  | wrb u d =>
    by_cases hu : u.writable = true
    · by_cases hc : s.cursor = 3
      · rw [show exec (.wrb u d) s = execWrb u d s from rfl, execWrb, if_pos hu] at h
        cases h; exact .inl ⟨_, State.operate_illFormed _ _ hc⟩
      · rw [exec_wrb_legal u d s hu hc] at h; cases h; exact .inr (.inr (.inl ⟨hc, u, d, rfl, hu, rfl⟩))
    · rw [show exec (.wrb u d) s = execWrb u d s from rfl, execWrb, if_neg hu] at h
      cases h; exact .inl ⟨_, rfl⟩
  | rdb u =>
    by_cases hu : u.readable = true
    · by_cases hc : s.cursor = 3
      · rw [show exec (.rdb u) s = execRdb u s from rfl, execRdb, if_pos hu] at h
        cases h; exact .inl ⟨_, State.operate_illFormed _ _ hc⟩
      · rw [exec_rdb_legal u s hu hc] at h; cases h; exact .inr (.inr (.inr (.inl ⟨hc, u, rfl, hu, rfl⟩)))
    · rw [show exec (.rdb u) s = execRdb u s from rfl, execRdb, if_neg hu] at h
      cases h; exact .inl ⟨_, rfl⟩
  | rldAxis f => exact (hf .reloadX f rfl).imp_right (.inr ∘ .inr ∘ .inr)
  | rldBase f => exact (hf .reload f rfl).imp_right (.inr ∘ .inr ∘ .inr)
  | cmrAxis f => exact (hf .modeControlX f rfl).imp_right (.inr ∘ .inr ∘ .inr)
  | cmrBase f => exact (hf .modeControl f rfl).imp_right (.inr ∘ .inr ∘ .inr)
  | iorAxis f => exact (hf .ioControlX f rfl).imp_right (.inr ∘ .inr ∘ .inr)
  | iorBase f => exact (hf .ioControl f rfl).imp_right (.inr ∘ .inr ∘ .inr)
  | idrAxis f => exact (hf .indexControlX f rfl).imp_right (.inr ∘ .inr ∘ .inr)
  | idrBase f => exact (hf .indexControl f rfl).imp_right (.inr ∘ .inr ∘ .inr)

/-- A step with nothing pending waits. -/
theorem step_nil {s : State} (h : s.pending = []) : step s = .next s := by
  simp [step, take, h]

/-- A step on a legal cursor serves the next input. -/
theorem step_cons {s : State} {inp : HostInput} {rest : List HostInput} (h : s.pending = inp :: rest)
    (hc : s.cursor ≠ 3) :
    step s = match serve inp { s with pending := rest } with
      | .run i s' => exec i s'
      | .done s' => .next s' := by
  have ht : take s = serve inp { s with pending := rest } := by
    have hl : s.cursorLegal = true := bne_iff_ne.mpr hc
    simp only [take, h, hl, if_true]
  show (match take s with
    | .run i s' => exec i s'
    | .done s' => .next s') = _
  rw [ht]

/-- A step with the illegal cursor refuses its input. -/
theorem step_illFormed {s : State} {inp : HostInput} {rest : List HostInput} (h : s.pending = inp :: rest)
    (hc : s.cursor = 3) : step s = .next ({ s with pending := rest }.raiseRefused .cursorIllFormed) := by
  simp [step, take, h, State.cursorLegal, hc]

/-- Everything a step can do: wait, be refused, run the instruction that its input names, reset, or end the run. -/
theorem step_cases {s t : State} (h : step s = .next t) :
    (s.pending = [] ∧ t = s) ∨ ∃ inp rest, s.pending = inp :: rest ∧
      ((∃ r, t = { s with pending := rest }.raiseRefused r) ∨
       (s.cursor ≠ 3 ∧ ∃ c i, inp = .word c ∧ decode c = .ok i ∧ exec i { s with pending := rest } = .next t) ∨
       (s.cursor ≠ 3 ∧ ∃ fn f, inp = .call fn f ∧ exec (fnInstr fn f) { s with pending := rest } = .next t) ∨
       (s.cursor ≠ 3 ∧ inp = .reset ∧ t = { s with pending := rest }.resetEvent) ∨
       (s.cursor ≠ 3 ∧ inp = .endOfRun ∧ t = { s with pending := rest }.endRun)) := by
  cases hp : s.pending with
  | nil => rw [step_nil hp] at h; cases h; exact .inl ⟨rfl, rfl⟩
  | cons inp rest =>
    refine .inr ⟨inp, rest, rfl, ?_⟩
    by_cases hc : s.cursor = 3
    · rw [step_illFormed hp hc] at h; cases h; exact .inl ⟨_, rfl⟩
    · rw [step_cons hp hc] at h
      cases inp with
      | word c =>
        cases hd : decode c with
        | ok i => simp only [serve, hd] at h; exact .inr (.inl ⟨hc, c, i, rfl, hd, h⟩)
        | error r => simp only [serve, hd] at h; cases h; exact .inl ⟨r, rfl⟩
      | call fn f => exact .inr (.inr (.inl ⟨hc, fn, f, rfl, h⟩))
      | reset => cases h; exact .inr (.inr (.inr (.inl ⟨hc, rfl, rfl⟩)))
      | wordDuringOperation c => cases h; exact .inl ⟨_, rfl⟩
      | resetDuringOperation => cases h; exact .inl ⟨_, rfl⟩
      | endOfRun => cases h; exact .inr (.inr (.inr (.inr ⟨hc, rfl, rfl⟩)))

end Sys2Proof.Machine
end

