-- ==== Sys2Proof/Tests/Slice0.lean ====
section
/-! SUPPORT. Tests: expected results are the vectors of spec/95_test_vectors.md, named in each docstring, and words written
out from the encodings of 30_encoding.md. The last part shows, for each statement with hypotheses, that they can be met. -/

namespace Sys2Proof.Tests.Slice0

open Sys2Proof Sys2Proof.Machine

/-! ### Well-formedness -/

theorem test_wf_write_to_flags : (Instr.wrb .xf 0x42).illFormed = some .writeToFlags ∧ (Instr.wrb .yf 0).wf = false := by
  decide
theorem test_wf_read_from_command : (Instr.rdb .xc).illFormed = some .readFromCommand ∧ (Instr.rdb .yc).wf = false := by
  decide
theorem test_wf_rld_flags : (Instr.rldAxis 0x20).illFormed = some .flagsTooWide ∧ (Instr.rldBase 0x20).wf = false := by
  decide
theorem test_wf_cmr_flags : (Instr.cmrAxis 0x20).wf = false ∧ (Instr.cmrBase 0x20).wf = false := by decide
theorem test_wf_ior_flags : (Instr.iorAxis 0x20).wf = false ∧ (Instr.iorBase 0x20).wf = false := by decide
theorem test_wf_idr_flags : (Instr.idrAxis 0x20).wf = false ∧ (Instr.idrBase 0xFF).wf = false := by decide

/-! ### Decoding: words written out from the fields of R54 to R56 and R62, R63 -/

/-- `000 000 0 1 00000000`. -/
theorem test_decode_setdir : decode (.req 0b0000000100000000) = .ok (.setdir .output) := by rfl
/-- `001 010 0 0 00010001`, DEC11. -/
theorem test_decode_wrb : decode (.req 0b0010100000010001) = .ok (.wrb .xc 0x11) := by rfl
/-- `010 101 0 0 00000000`, DEC24. -/
theorem test_decode_rdb : decode (.req 0b0101010000000000) = .ok (.rdb .yf) := by rfl
/-- `0 00 10001`. -/
theorem test_decode_rldAxis : decode (.cmd 0b00010001) = .ok (.rldAxis 0x11) := by rfl
/-- `1 00 00011`. -/
theorem test_decode_rldBase : decode (.cmd 0b10000011) = .ok (.rldBase 0x03) := by rfl
/-- `0 01 11110`, the example E1. -/
theorem test_decode_cmrAxis : decode (.cmd 0b00111110) = .ok (.cmrAxis 0x1E) := by rfl
/-- `1 01 00001`. -/
theorem test_decode_cmrBase : decode (.cmd 0b10100001) = .ok (.cmrBase 0x01) := by rfl
/-- `0 10 10000`. -/
theorem test_decode_iorAxis : decode (.cmd 0b01010000) = .ok (.iorAxis 0x10) := by rfl
/-- `1 10 00010`. -/
theorem test_decode_iorBase : decode (.cmd 0b11000010) = .ok (.iorBase 0x02) := by rfl
/-- `0 11 00100`. -/
theorem test_decode_idrAxis : decode (.cmd 0b01100100) = .ok (.idrAxis 0x04) := by rfl
/-- `1 11 01000`. -/
theorem test_decode_idrBase : decode (.cmd 0b11101000) = .ok (.idrBase 0x08) := by rfl

/-- DEC17, DEC20, DEC27, DEC30, DEC35: the order of the checks. -/
theorem test_decode_first_check_wins :
    decode (.req 0x3100) = .error .writeToFlags ∧ decode (.req 0x3A00) = .error .reservedTarget ∧
      decode (.req 0x4900) = .error .readFromCommand ∧ decode (.req 0x5900) = .error .reservedTarget ∧
      decode (.req 0x7800) = .error .reservedOp := by
  refine ⟨rfl, rfl, rfl, rfl, rfl⟩

/-- DEC3 to DEC5, DEC13, DEC14, DEC31 to DEC33: one reserved field each. -/
theorem test_decode_reserved_fields :
    ∀ w ∈ ([0x0001, 0x0200, 0x0400, 0x2100, 0x2200, 0x4001, 0x4100, 0x4200] : List Nat),
      decodeTableWord 16 w = none := by decide

/-! ### Small states -/

/-- The lines `DIR CS_n WR_n RD_n CD XY DOUT` of a vector. -/
def lines (dir : Dir) (csN cd xy : Level) (dout : Byte) : Pins :=
  { dir := dir, csN := csN, wrN := .high, rdN := .high, cd := cd, xy := xy, dout := dout }

/-- The vectors' `S1`: `In 0 1 1 0 0 0x00 1 0`, axis X. -/
def atS1 : State := { State.reset with pins := lines .input .low .low .low 0, cursor := 1 }

/-- The vectors' `S2`: `In 0 1 1 0 0 0x00 2 0`, axis X. -/
def atS2 : State := { atS1 with cursor := 2 }

/-- The illegal cursor, with an input waiting. -/
def atIllegal : State := { State.reset with cursor := 3, pending := [.reset] }

/-- Idle, with one input waiting. -/
def waiting (inp : HostInput) : State := { State.reset with pending := [inp] }

/-- Idle, with the reference chip's axis X given and axis Y at its launch values. -/
def withChipX (x : ChipAxis) : State := { State.reset with chip := some { RefChip.launch with x := x } }

/-- The chip after an instruction, on one axis. -/
def chipAfter (i : Instr) (s : State) (a : Axis) : Option ChipAxis := (issue i s).chip.map (·.axis a)

/-! ### SETDIR -/

/-- SD1. -/
theorem test_setdir_out :
    (issue (.setdir .output) State.reset).pins = lines .output .high .low .low 0x00 ∧
      (issue (.setdir .output) State.reset).trace = [.busOut 0x00, .setMode .output, .wait .tSettle] := by decide

/-- SD4: mid-cycle, chip-select stays low and `V4` is set. -/
theorem test_setdir_mid_cycle :
    (issue (.setdir .output) atS1).pins = lines .output .low .low .low 0x00 ∧
      (issue (.setdir .output) atS1).violations = [.v4] ∧ (issue (.setdir .output) atS1).cursor = 1 := by decide

/-! ### WRB -/

/-- WR1, the full trace and the end state. -/
theorem test_wrb_xc :
    (issue (.wrb .xc 0x11) State.reset).pins = lines .output .high .high .low 0x11 ∧
      (issue (.wrb .xc 0x11) State.reset).trace =
        [ .busOut 0x00, .setMode .output, .wait .tSettle,
          .drive { csN := some .high, wrN := some .high, rdN := some .high },
          .drive { cd := some .high, xy := some .low },
          .busOut 0x11,
          .drive { csN := some .low, wrN := some .low },
          .wait (.ns 45),
          .drive { csN := some .high, wrN := some .high } ] := by decide

/-- WR5: from `S2` to `D2`, `V1`. -/
theorem test_wrb_mid_cycle :
    (issue (.wrb .yc 0x01) atS2).pins = lines .output .high .high .high 0x01 ∧
      (issue (.wrb .yc 0x01) atS2).cursor = 2 ∧ (issue (.wrb .yc 0x01) atS2).violations = [.v1] := by decide

/-! ### RDB -/

/-- RD1, the full trace and the end state. -/
theorem test_rdb_xd :
    (issue (.rdb .xd) State.reset).pins = lines .input .low .low .low 0x00 ∧
      (issue (.rdb .xd) State.reset).cursor = 1 ∧ (issue (.rdb .xd) State.reset).cycleAxis = .x ∧
      (issue (.rdb .xd) State.reset).trace =
        [ .busOut 0x00, .setMode .input, .wait .tSettle,
          .drive { cd := some .low, xy := some .low },
          .drive { csN := some .low, rdN := some .low },
          .wait (.ns 80), .sample, .drive { rdN := some .high }, .wait (.ns 90) ] := by decide

/-- RD3, RD6 and RD9. -/
theorem test_rdb_in_a_cycle :
    (issue (.rdb .xd) atS2).pins = lines .input .high .low .low 0x00 ∧ (issue (.rdb .xd) atS2).cursor = 0 ∧
      (issue (.rdb .yd) atS1).pins = lines .input .low .low .high 0x00 ∧ (issue (.rdb .yd) atS1).violations = [.v2] ∧
      (issue (.rdb .yf) atS2).pins = lines .input .high .high .high 0x00 ∧ (issue (.rdb .yf) atS2).cursor = 2 ∧
      (issue (.rdb .yf) atS2).violations = [.v3] := by decide

/-! ### The command rows (section 3.4) -/

/-- ENC6, ENC23. -/
theorem test_rldAxis : (issue (.rldAxis 0x11) atS1).result = some 0x11 ∧
    (issue (.rldAxis 0x20) atS1).refusals = [.flagsTooWide] := by decide
/-- ENC8, ENC9. -/
theorem test_rldBase : (issue (.rldBase 0x11) atS1).result = some 0x91 ∧
    (issue (.rldBase 0x1F) atS1).result = some 0x9F := by decide
/-- ENC10, ENC14. -/
theorem test_cmrAxis : (issue (.cmrAxis 0) atS1).result = some 0x20 ∧
    (issue (.cmrAxis 0x18) atS1).result = some 0x38 := by decide
/-- ENC12, ENC13. -/
theorem test_cmrBase : (issue (.cmrBase 0x1E) atS1).result = some 0xBE ∧
    (issue (.cmrBase 0x1F) atS1).result = some 0xBF := by decide
/-- ENC15, ENC16. -/
theorem test_iorAxis : (issue (.iorAxis 0) atS1).result = some 0x40 ∧
    (issue (.iorAxis 0x1F) atS1).result = some 0x5F := by decide
/-- ENC17, ENC18. -/
theorem test_iorBase : (issue (.iorBase 0) atS1).result = some 0xC0 ∧
    (issue (.iorBase 0x1F) atS1).result = some 0xDF := by decide
/-- ENC19, ENC20. -/
theorem test_idrAxis : (issue (.idrAxis 0) atS1).result = some 0x60 ∧
    (issue (.idrAxis 0x1F) atS1).result = some 0x7F := by decide
/-- ENC21, ENC22. -/
theorem test_idrBase : (issue (.idrBase 0) atS1).result = some 0xE0 ∧
    (issue (.idrBase 0x1F) atS1).result = some 0xFF := by decide
/-- E1. -/
theorem test_source_example : modeControlX (moduloN ||| qdx4) = .ok 0x3E := by rfl

/-! ### The step -/

/-- The first step after reset runs the word placed: 0x2811 is WR1, 0x91 is the byte of `reload(0x11)`. -/
theorem test_step_runs_the_fetched_word :
    step (State.reset.withFetchWord 16 0x2811) = exec (.wrb .xc 0x11) State.reset ∧
      step (State.reset.withFetchWord 8 0x91) = exec (.rldBase 0x11) State.reset := ⟨rfl, rfl⟩

/-- WR6: `Z` then 0x3000 is `Z` with `REFUSED` = 1. -/
theorem test_step_refuses_write_to_flags :
    step (State.reset.withFetchWord 16 0x3000) =
      .next { State.reset with refused := true, refusals := [.writeToFlags] } := rfl

/-! ### The reference chip (sections 3.5, 3.6 and 3.9) -/

/-- From `BP` = 0, a data write stores its byte and moves the pointer (section 3.5). -/
theorem test_chip_write :
    chipAfter (.wrb .xd 0x42) (withChipX ChipAxis.launch) .x =
      some { ChipAxis.launch with pr := { b0 := 0x42, b1 := 0, b2 := 0 }, bp := 1 } := by decide

/-- With `OL[X]` = 0x123456 and `BP[X]` = 1 the read samples 0x34 (section 3.6). -/
theorem test_chip_read :
    (issue (.rdb .xd) (withChipX { ChipAxis.launch with ol := 0x123456, bp := 1 })).result = some 0x34 := by decide

/-- RC1 and RC3. -/
theorem test_chip_reload :
    chipAfter (.wrb .xc 0x03) (withChipX { ChipAxis.launch with bp := 2, cntr := 5 }) .x = some ChipAxis.launch ∧
      chipAfter (.wrb .xc 0x11) (withChipX { ChipAxis.launch with cntr := 0x123456 }) .x =
        some { ChipAxis.launch with cntr := 0x123456, ol := 0x123456 } := by decide

/-- RC2, with `PR[X]` = (0x01, 0x02, 0x03). -/
theorem test_chip_preset_transfer :
    (chipAfter (.wrb .xc 0x08) (withChipX { ChipAxis.launch with pr := { b0 := 0x01, b1 := 0x02, b2 := 0x03 } }) .x).map
      ChipAxis.cntr = some 0x030201 := by decide

/-- RC5 on the axis the target does not name, and RC8. -/
theorem test_chip_other_axis :
    chipAfter (.wrb .yc 0x91) (withChipX { ChipAxis.launch with cntr := 1, bp := 2 }) .x =
        some { ChipAxis.launch with cntr := 1, ol := 1 } ∧
      chipAfter (.wrb .yc 0x60) (withChipX ChipAxis.launch) .y = some { ChipAxis.launch with idr := 0x60 } := by decide

/-! ### Byte order (section 3.7 and E3) -/

theorem test_split3 : split3 0x800000 = { b0 := 0x00, b1 := 0x00, b2 := 0x80 } ∧
    split3 0x00ABCD = { b0 := 0xCD, b1 := 0xAB, b2 := 0x00 } := by decide
theorem test_join3 : join3 0xFF 0x00 0x00 = 0x0000FF ∧ join3 0x56 0x34 0x12 = 0x123456 := by decide

/-- R41: line `Di` carries bit `i`, driven from `DOUT` and driven by the environment, and sampled. -/
theorem test_data_line_order :
    (lines .output .high .low .low 0x01).line 0x00 (.d 0) = .high ∧
      (lines .output .high .low .low 0x01).line 0xFE (.d 1) = .low ∧
      (lines .input .low .low .low 0x00).line 0x80 (.d 7) = .high ∧
      byteOfLines (fun i => if i = 7 then .high else .low) = 0x80 := by decide

/-! ### Host sequences (section 3.8) and the assembler (section 3.2) -/

/-- HS3. -/
theorem test_rdlatch_words :
    wordsOf (rdLatchOps .y) = [.req 0x2C11, .req 0x4400, .req 0x4400, .req 0x4400] := by decide
/-- HS5. -/
theorem test_wrpreset_words : wordsOf (wrPresetOps .x 0x1234) = [.req 0x2801, .req 0x2034] := by decide
/-- HS6. -/
theorem test_setcnt_words :
    wordsOf (setCntFitsOps .y 0xFFFFFF) =
      [ .req 0x2C01, .req 0x24FF, .req 0x24FF, .req 0x24FF, .req 0x2C08, .req 0x2C11, .req 0x4400, .req 0x4400,
        .req 0x4400 ] := by decide
/-- HS7 and R119: the samples 0xCD, 0xAB, 0x01 are not 0x00ABCD, and one false result makes the AND false. -/
theorem test_setcnt_compare :
    joinResults (some 0xCD) (some 0xAB) (some 0x01) = some 0x01ABCD ∧ (0x01ABCD : U24) ≠ 0x00ABCD ∧
      andResults (some true) (some false) = some false ∧ andResults (some true) (some true) = some true := by decide
/-- P3, phase B for axis X. -/
theorem test_init_axis_words :
    wordsOf (writes (initAxisWrites .x
        { prescaler := 0x10, maxCount := 0x0003E8, idrFlags := 0x00, cmrFlags := 0x1E })) =
      [ .req 0x2805, .req 0x2010, .req 0x2818, .req 0x2803, .req 0x2860, .req 0x283E, .req 0x20E8, .req 0x2003,
        .req 0x2000 ] := by decide

/-- ASM1 and ASM2. -/
theorem test_assemble_wrb :
    assemble "wrb xc, 17" = .words [.req 0x2811] ∧ assemble "WRB YD, 0xff ; comment" = .words [.req 0x24FF] := by
  decide
/-- ASM3 to ASM5. -/
theorem test_assemble_others :
    assemble "WRB XD, 256" = .refused .immediateRange ∧ assemble "RDB YF" = .words [.req 0x5400] ∧
      assemble "SETDIR OUT" = .words [.req 0x0100] := by decide

/-! ### Witnesses: the hypotheses of each statement can be met together

The cursor 0, 1 and 2 are its legal values; 0x1F is the widest flag value that fits and 0x20 the narrowest that does not. -/

/-- DecodeOfEncodeIsTheInstruction. -/
theorem witness_wf : (Instr.wrb .yc 0xFF).wf = true ∧ (Instr.rdb .yf).wf = true ∧ (Instr.idrBase 0x1F).wf = true := by
  decide

/-- EncodeOfDecodeIsTheWord. -/
theorem witness_decoded : decode (.req 0x2CFF) = .ok (.wrb .yc 0xFF) ∧ decode (.cmd 0xFF) = .ok (.idrBase 0x1F) :=
  ⟨rfl, rfl⟩

/-- CommandByteIsItsFieldsJoinedByOr, EncoderCallsTouchNoControllerState, the four statements on the command rows and
TwoTransferCodesEncodeTheThird. -/
theorem witness_flags : (0x1F ≤ 0x1F) ∧ (0x1F < 0x20) ∧ (0x7 ≤ 0x7) := by decide

/-- SetdirWritesDirAndDoutOnly: its word clause at the last word, its state clause idle and in the middle of a cycle, with no
chip and the read strobe high. -/
theorem witness_setdir :
    ((0x1FFF : ReqWord).toNat < 0x2000 ∧ (0x1FFF : ReqWord) ≠ 0x0000 ∧ (0x1FFF : ReqWord) ≠ 0x0100) ∧
      (State.reset.cursor ≠ 3 ∧ State.reset.chip = none ∧ State.reset.pins.rdN = .high) ∧
      (atS2.cursor ≠ 3 ∧ atS2.chip = none ∧ atS2.pins.rdN = .high) := by decide

/-- SetdirTwiceRepeatsTheTrace, ReadsCheckTheOpenCycle (both clauses), WrpresetSendsOneByteAfterEachReset,
RdflagsIsOneFlagRead, InitDisablesFirstAndEnablesLast and InputsDuringAnOperationRefused's legal cursor. -/
theorem witness_legal_cursor :
    State.reset.cursor ≠ 3 ∧ atS1.cursor ≠ 3 ∧ atS2.cursor ≠ 3 ∧ Target.yd.cls = .data ∧ Target.yf.cls = .flags ∧
      atS2.cursor ≠ 0 ∧ Target.yd.axis ≠ atS2.cycleAxis := by decide

/-- WrbWritesItsLinesAndKeepsCursor, both clauses, and WriteToFlagsAndReadFromCommandRefused. -/
theorem witness_wrb_classes :
    Target.xf.cls = .flags ∧ (Target.yc.cls ≠ .flags ∧ atS2.cursor ≠ 3 ∧ atS2.chip = none) ∧
      Target.xc.cls = .command := by decide

/-- WrbEmitsItsNineEvents. -/
theorem witness_wrb : Target.yc.writable = true ∧ atS2.cursor ≠ 3 := by decide

/-- WrbMidCycleDesynchronises, at both cursors. -/
theorem witness_wrb_mid_cycle : Target.yc.writable = true ∧ (atS1.cursor = 1 ∨ atS1.cursor = 2) ∧
    (atS2.cursor = 1 ∨ atS2.cursor = 2) := by decide

/-- WrbSelectLinesSteadyUnderChipSelect: chip-select is low before event 8. -/
theorem witness_wrb_selected :
    writeTrace Params.default .xc 0x11 =
        (writeTrace Params.default .xc 0x11).take 7 ++
          .wait (.ns 45) :: [.drive { csN := some .high, wrN := some .high }] ∧
      (replay State.reset.pins ((writeTrace Params.default .xc 0x11).take 7)).csN = .low := by decide

/-- WrbDataHeldThroughTheStrobe, at the shortest and the longest prefix. -/
theorem witness_wrb_held :
    (∀ n ∈ [6, 9], writeTrace Params.default .xc 0x11 =
        (writeTrace Params.default .xc 0x11).take n ++ (writeTrace Params.default .xc 0x11).drop n ∧
      6 ≤ ((writeTrace Params.default .xc 0x11).take n).length) := by decide

/-- DataReadAdvancesCursorAndClosesAtTwo, at each cursor. -/
theorem witness_data_read : Target.yd.cls = .data ∧ State.reset.cursor ≠ 3 ∧ atS1.cursor ≠ 3 ∧ atS2.cursor = 2 ∧
    State.reset.chip = none := by decide

/-- FlagReadClosesAndKeepsCursor. -/
theorem witness_flag_read : Target.yf.cls = .flags ∧ atS2.cursor ≠ 3 ∧ atS2.chip = none := by decide

/-- RdbEmitsItsNineEvents and OpenSampleIsTheNextFreeValue. -/
theorem witness_rdb : Target.yf.readable = true ∧ Target.xd.readable = true ∧ atS2.cursor ≠ 3 ∧ atS2.chip = none := by
  decide

/-- ThreeDataReadsCloseTheCycle. -/
theorem witness_three_reads : Target.xd.cls = .data ∧ Target.yd.cls = .data ∧ State.reset.cursor = 0 := by decide

/-- ReadCycleFollowsItsTable: a state in each of the five cycle states. -/
theorem witness_cycle_states :
    State.reset.inCycle .s0 ∧ atS1.inCycle .s1 ∧ atS2.inCycle .s2 ∧ (issue (.wrb .yc 0x01) atS1).inCycle .d1 ∧
      (issue (.wrb .yc 0x01) atS2).inCycle .d2 ∧ Target.yd.cls = .data ∧ Target.yf.cls = .flags ∧
      Target.yc.writable = true := by decide

/-- StepRunsTheDecodedInstruction. -/
theorem witness_step_decoded :
    (waiting (.word (.req 0x2811))).pending = .word (.req 0x2811) :: [] ∧ decode (.req 0x2811) = .ok (.wrb .xc 0x11) ∧
      (waiting (.word (.req 0x2811))).cursor ≠ 3 ∧
      (waiting (.call .modeControlY 0x1E)).pending = .call .modeControlY 0x1E :: [] ∧
      (waiting (.call .modeControlY 0x1E)).cursor ≠ 3 := ⟨rfl, rfl, by decide, rfl, by decide⟩

/-- StepRefusesAnUndecodableWord. -/
theorem witness_step_refused :
    (waiting (.word (.req 0xFFFF))).pending = .word (.req 0xFFFF) :: [] ∧ decode (.req 0xFFFF) = .error .reservedOp ∧
      (waiting (.word (.req 0xFFFF))).cursor ≠ 3 := ⟨rfl, rfl, by decide⟩

/-- InputsDuringAnOperationRefused, ResetEventReturnsToIdle and RunEndingMidCycleIsMarked: each input on a legal cursor; the
last also in the middle of a cycle. -/
theorem witness_inputs :
    (waiting (.wordDuringOperation (.req 0x4000))).pending = .wordDuringOperation (.req 0x4000) :: [] ∧
      (waiting .resetDuringOperation).pending = .resetDuringOperation :: [] ∧
      (waiting .reset).pending = .reset :: [] ∧ (waiting .reset).cursor ≠ 3 ∧
      ({ atS2 with pending := [.endOfRun] } : State).pending = .endOfRun :: [] ∧ atS2.cursor ≠ 3 := by decide

/-- CursorThreeIsRefused, its three clauses. -/
theorem witness_cursor_three :
    (State.reset.cursor ≠ 3 ∧ step State.reset = .next State.reset) ∧ atIllegal.cursor = 3 ∧
      atIllegal.pending = .reset :: [] ∧ Target.yc.writable = true ∧ Target.yf.readable = true :=
  ⟨⟨by decide, rfl⟩, by decide⟩

/-- StepKeepsTheBusInvariant, MarksAreSticky, TraceGrowsAtItsEndOnly: a step from a state that meets the invariant. -/
theorem witness_step_next : BusInvariant State.reset ∧ step State.reset = .next State.reset :=
  ⟨⟨by decide, by decide, by decide, by decide, fun h => absurd h (by decide), by decide, by decide⟩, rfl⟩

/-- MarksAreSticky: a marked state takes a step. -/
theorem witness_sticky :
    ({ State.reset with viol := true, refused := true } : State).viol = true ∧
      step { State.reset with viol := true, refused := true } =
        .next { State.reset with viol := true, refused := true } := ⟨rfl, rfl⟩

/-- ViolationsHaveAListedCause: a step that newly sets `VIOL`. -/
theorem witness_new_violation :
    step { atS1 with pending := [.word (.req 0x2C01)] } = .next (issue (.wrb .yc 0x01) atS1) ∧ atS1.viol = false ∧
      (issue (.wrb .yc 0x01) atS1).viol = true := ⟨rfl, by decide⟩

/-- RefusedStepChangesOnlyTheRefusalMark: a step that records a refusal. -/
theorem witness_refused_step :
    step (waiting (.word (.req 0x3000))) = .next (State.reset.raiseRefused .writeToFlags) ∧
      (State.reset.raiseRefused .writeToFlags).refusals ≠ (waiting (.word (.req 0x3000))).refusals :=
  ⟨rfl, by decide⟩

/-- TraceExplainsTheLines, EveryDirectionSwitchSettles and NoContentionInsideAnOperation. -/
theorem witness_exec_next : State.reset.pins.rdN = .high ∧
    exec (.wrb .xc 0x11) State.reset = .next (issue (.wrb .xc 0x11) State.reset) := ⟨rfl, rfl⟩

/-- RdlatchJoinsItsThreeReads, its hypotheses on the cursor. -/
theorem witness_rdlatch : State.reset.cursor ≠ 3 ∧ State.reset.cursor = 0 ∧ atS1.cursor ≠ 3 ∧ atS1.cursor = 1 ∧
    atS1.cursor ≠ 0 ∧ atS2.cursor ≠ 3 ∧ atS2.cursor = 2 := by decide

/-- SetcntLeavesTheControllerIdle and SetcntRefusesAWideValue, at the widest value that fits and the next one. -/
theorem witness_setcnt : 0xFFFFFF < 2 ^ 24 ∧ 2 ^ 24 ≤ 0x1000000 ∧ State.reset.cursor = 0 := by decide

/-- SetcntReadsBackUnderTheReferenceChip. -/
theorem witness_chip :
    (withChipX ChipAxis.launch).cursor = 0 ∧ (withChipX ChipAxis.launch).pins.wrN = .high ∧
      (withChipX ChipAxis.launch).pins.rdN = .high ∧ (withChipX ChipAxis.launch).chip = some RefChip.launch := by decide

/-- ChipStoresADataWriteAtItsBytePointer and ChipAnswersADataReadFromItsLatch, at the byte pointers 0, 2 and 3, and
ChipAppliesReloadCommandsInOrder, ChipStoresModeCommandsWhole, ChipAnswersAFlagReadWithItsFlags. -/
theorem witness_chip_pointer :
    (∀ k ∈ ([0, 1, 2, 3] : List (Fin 4)), (withChipX { ChipAxis.launch with bp := k }).chip =
        some { RefChip.launch with x := { ChipAxis.launch with bp := k } } ∧
      (withChipX { ChipAxis.launch with bp := k }).cursor ≠ 3 ∧
      (withChipX { ChipAxis.launch with bp := k }).pins.wrN = .high ∧
      (withChipX { ChipAxis.launch with bp := k }).pins.rdN = .high) ∧
      cmdSel 0x3E ≠ 0b00 ∧ cmdSel 0xFF ≠ 0b00 := by decide

/-- AssembledImmediateIsAByteOrRefused, at 255, 256, a word that is no integer, and lists of digits. -/
theorem witness_immediate :
    Target.yc.writable = true ∧ integer "255" = some 255 ∧ integer "0x100" = some 256 ∧ integer "0x" = none ∧
      ([2, 5, 5] : List (Fin 10)) ≠ [] ∧ ([15, 15] : List (Fin 16)) ≠ [] := by decide

end Sys2Proof.Tests.Slice0
end

namespace Sys2Proof.Machine

/-! ### Scope: the trace and the lines (00_scope.md R12, R13, R15) -/

/-- The nine events of an `RDB` lead to its lines: sampling and waiting move no line, and event 8 is its closure. -/
theorem readByte_pins_replay (t : Target) (s : State) :
    (readByte t s).pins = replay s.pins (readTrace s.params t s.cursor) := by
  rw [readTrace, replay_append]
  simp only [readByte, State.deliver_pins, State.emit_pins, close_pins, State.sample_pins, State.emitAll_pins,
    checkCycle_pins, State.sample_cursor, State.emitAll_cursor, checkCycle_cursor]
  rfl

/-- While `DIR` is `Input`, data line `Di` carries bit `i` of what the environment drives (10_state.md R22, 20_memory.md
R41). -/
theorem Pins.line_input (p : Pins) (env : Byte) (i : Fin 8) (h : p.dir = .input) :
    p.line env (.d i) = Level.ofBool (env.getLsbD i) := by
  simp [Pins.line, h, dataLevel]

/-- Settles O43: by the cases of an instruction, whose operations move the lines only by the events they emit. -/
theorem traceExplainsTheLines : Obligations.TraceExplainsTheLines := by
  intro i s t h
  obtain ⟨r, rfl⟩ | ⟨-, m, -, rfl⟩ | ⟨-, u, d, -, -, rfl⟩ | ⟨-, u, -, -, rfl⟩ | ⟨b, rfl⟩ := exec_cases h
  · exact ⟨[], (List.append_nil _).symm, rfl⟩
  · exact ⟨_, setDirection_trace m s, setDirection_pins m s⟩
  · exact ⟨_, writeByte_trace u d s, writeByte_pins u d s⟩
  · exact ⟨_, readByte_trace u s, readByte_pins_replay u s⟩
  · exact ⟨[], (List.append_nil _).symm, rfl⟩

/-- Settles O26: a read with no chip attached gives the draw at its sample, when the data lines are inputs. -/
theorem openSampleIsTheNextFreeValue : Obligations.OpenSampleIsTheNextFreeValue := by
  intro t s ht hc hs
  exact ⟨readByte t s, readDraw s t, exec_rdb_legal t s ht hc, rfl, (readByte_open t s hs).2, readByte_draws t s,
    fun i => Pins.line_input _ _ i rfl⟩

end Sys2Proof.Machine

namespace Sys2Proof.Machine

/-! ### State: the invariants between operations (10_state.md R24, R26) -/

/-- A legal cursor in a read cycle is 1 or 2. -/
theorem cursor_midCycle : ∀ k : BitVec 2, k ≠ 3 → k ≠ 0 → k = 1 ∨ k = 2 := by decide

/-- Where no unmarked state is in the middle of a cycle, what R26 says of an open cycle holds of nothing, and the legal
cursor, the strobes and the idle chip-select are left to show. -/
theorem BusInvariant.of_unmarkedIdle {s : State} (hc : s.cursor ≠ 3) (hs : s.pins.wrN = .high ∧ s.pins.rdN = .high)
    (hi : s.cursor = 0 → s.pins.csN = .high) (hu : s.viol = false → s.cursor = 0) : BusInvariant s where
  cursorLegal := hc
  strobesHigh := hs
  selectedMidCycle hl := cursor_midCycle _ hc fun h0 => by simp [hi h0] at hl
  selectedIsInput hl hv := by simp [hi (hu hv)] at hl
  selectedAfterRead hl hv := by simp [hi (hu hv)] at hl
  idleDeselected := hi
  cycleIsSelected hv := by simp [hu hv, hi (hu hv)]

/-- The invariants read the lines, the cursor, `VIOL`, the trace and the parameters only. -/
theorem BusInvariant.congr {s t : State} (h : BusInvariant s) (hp : t.pins = s.pins) (hc : t.cursor = s.cursor)
    (hv : t.viol = s.viol) (ht : t.trace = s.trace) (hq : t.params = s.params) : BusInvariant t where
  cursorLegal := hc ▸ h.cursorLegal
  strobesHigh := hp ▸ h.strobesHigh
  selectedMidCycle := hp ▸ hc ▸ h.selectedMidCycle
  selectedIsInput := hp ▸ hv ▸ h.selectedIsInput
  selectedAfterRead := by simpa only [State.endsInOpenRead, hp, hv, ht, hq] using h.selectedAfterRead
  idleDeselected := hp ▸ hc ▸ h.idleDeselected
  cycleIsSelected := hp ▸ hv ▸ hc ▸ h.cycleIsSelected

/-! ### State: each operation keeps the invariants -/

theorem setDirection_keeps_busInvariant (m : Dir) {s : State} (h : BusInvariant s) :
    BusInvariant (setDirection m s) :=
  .of_unmarkedIdle (by simpa using h.cursorLegal) (by simpa using h.strobesHigh) (by simpa using h.idleDeselected)
    (by simp)

theorem writeByte_busInvariant (t : Target) (d : Byte) {s : State} (h : s.cursor ≠ 3) :
    BusInvariant (writeByte t d s) :=
  .of_unmarkedIdle (by simpa using h) (by simp) (by simp) (by simp)

@[simp] theorem State.endRun_pins (s : State) : s.endRun.pins = s.pins := by simp [State.endRun]

@[simp] theorem State.endRun_cursor (s : State) : s.endRun.cursor = s.cursor := by simp [State.endRun]

@[simp] theorem State.endRun_viol (s : State) : s.endRun.viol = (s.viol || s.cursor != 0) := by simp [State.endRun]

theorem endRun_keeps_busInvariant {s : State} (h : BusInvariant s) : BusInvariant s.endRun :=
  .of_unmarkedIdle (by simpa using h.cursorLegal) (by simpa using h.strobesHigh) (by simpa using h.idleDeselected)
    (by simp)

/-- A reset leads to the invariants from any state. -/
theorem resetEvent_busInvariant (s : State) : BusInvariant s.resetEvent :=
  .of_unmarkedIdle (by simp [State.resetEvent]) ⟨rfl, rfl⟩ (fun _ => rfl) (fun _ => rfl)

theorem readByte_flags_busInvariant {t : Target} {s : State} (ht : t.cls = .flags) (hc : s.cursor ≠ 3)
    (hw : s.pins.wrN = .high) : BusInvariant (readByte t s) :=
  .of_unmarkedIdle (readByte_legal t s hc) (by simpa using hw) (by simp [ht])
    (by simp [(checkCycle_flags t s ht).2.1, ht])

/-- The third data read of a cycle closes it. -/
theorem readByte_dataClosing_busInvariant {t : Target} {s : State} (ht : t.cls = .data) (hc : s.cursor = 2)
    (hw : s.pins.wrN = .high) : BusInvariant (readByte t s) :=
  have h0 := (readByte_data_cursor t s ht).2.2 hc
  .of_unmarkedIdle (h0.trans_ne (by decide)) (by simpa using hw) (by simp [hc]) (fun _ => h0)

/-- A data read before the third leaves its cycle half-closed, and its own events are the last of the trace. -/
theorem readByte_dataOpen_busInvariant {t : Target} {s : State} (ht : t.cls = .data) (hc : s.cursor ≠ 3)
    (hc2 : s.cursor ≠ 2) (hw : s.pins.wrN = .high) : BusInvariant (readByte t s) := by
  have hlow : (readByte t s).pins.csN = .low := by simpa [ht] using hc2
  have hmid : (readByte t s).cursor = 1 ∨ (readByte t s).cursor = 2 := by
    by_cases h0 : s.cursor = 0
    · exact .inl ((readByte_data_cursor t s ht).1 h0)
    · exact .inr ((readByte_data_cursor t s ht).2.1 ((cursor_midCycle _ hc h0).resolve_right hc2))
  have hclose : closureOf t s.cursor = partialClosure := if_neg (by simpa [ht] using hc2)
  have hpos : (readByte t s).cursor ≠ 0 := hmid.elim (·.trans_ne (by decide)) (·.trans_ne (by decide))
  exact {
    cursorLegal := readByte_legal t s hc
    strobesHigh := by simpa using hw
    selectedMidCycle := fun _ => hmid
    selectedIsInput := fun _ _ => by simp
    selectedAfterRead := fun _ _ => ⟨t, s.trace, ht, by simp [readTrace, hclose]⟩
    idleDeselected := fun h0 => absurd h0 hpos
    cycleIsSelected := fun _ => iff_of_true hpos hlow }

theorem readByte_busInvariant {t : Target} {s : State} (ht : t.readable = true) (hc : s.cursor ≠ 3)
    (hw : s.pins.wrN = .high) : BusInvariant (readByte t s) := by
  cases hcls : t.cls with
  | flags => exact readByte_flags_busInvariant hcls hc hw
  | command => exact absurd hcls ((readable_iff t).mp ht)
  | data =>
    by_cases hc2 : s.cursor = 2
    · exact readByte_dataClosing_busInvariant hcls hc2 hw
    · exact readByte_dataOpen_busInvariant hcls hc hc2 hw

/-! ### State: each instruction and each step keep them -/

theorem exec_keeps_busInvariant {i : Instr} {s t : State} (h : BusInvariant s) (he : exec i s = .next t) :
    BusInvariant t := by
  obtain ⟨r, rfl⟩ | ⟨-, m, -, rfl⟩ | ⟨hc, u, d, -, -, rfl⟩ | ⟨hc, u, -, hu, rfl⟩ | ⟨b, rfl⟩ := exec_cases he
  · exact h.congr rfl rfl rfl rfl rfl
  · exact setDirection_keeps_busInvariant m h
  · exact writeByte_busInvariant u d hc
  · exact readByte_busInvariant hu hc h.strobesHigh.1
  · exact h.congr rfl rfl rfl rfl rfl

/-- Settles O37: by the cases of a step. Taking an input off the stream touches nothing the invariants read. -/
theorem stepKeepsTheBusInvariant : Obligations.StepKeepsTheBusInvariant := by
  intro s t h hstep
  obtain ⟨-, rfl⟩ | ⟨inp, rest, -, hserve⟩ := step_cases hstep
  · exact h
  · have hrest : BusInvariant { s with pending := rest } := h.congr rfl rfl rfl rfl rfl
    obtain ⟨r, rfl⟩ | ⟨-, c, i, -, -, he⟩ | ⟨-, fn, f, -, he⟩ | ⟨-, -, rfl⟩ | ⟨-, -, rfl⟩ := hserve
    · exact h.congr rfl rfl rfl rfl rfl
    · exact exec_keeps_busInvariant hrest he
    · exact exec_keeps_busInvariant hrest he
    · exact resetEvent_busInvariant _
    · exact endRun_keeps_busInvariant hrest

/-- Settles O38: at launch the cursor is 0, and the strobes and chip-select are high. -/
theorem launchStateMeetsTheBusInvariant : Obligations.LaunchStateMeetsTheBusInvariant :=
  .of_unmarkedIdle (by decide) ⟨rfl, rfl⟩ (fun _ => rfl) (fun _ => rfl)

/-! ### State: the illegal cursor (10_state.md R24) -/

theorem exec_keeps_cursorLegal {i : Instr} {s t : State} (h : s.cursor ≠ 3) (he : exec i s = .next t) :
    t.cursor ≠ 3 := by
  obtain ⟨r, rfl⟩ | ⟨-, m, -, rfl⟩ | ⟨-, u, d, -, -, rfl⟩ | ⟨-, u, -, -, rfl⟩ | ⟨b, rfl⟩ := exec_cases he
  · exact h
  · simpa using h
  · simpa using h
  · exact readByte_legal u s h
  · exact h

theorem step_keeps_cursorLegal {s t : State} (h : s.cursor ≠ 3) (hstep : step s = .next t) : t.cursor ≠ 3 := by
  obtain ⟨-, rfl⟩ | ⟨inp, rest, -, hserve⟩ := step_cases hstep
  · exact h
  · have hrest : { s with pending := rest }.cursor ≠ 3 := h
    obtain ⟨r, rfl⟩ | ⟨-, c, i, -, -, he⟩ | ⟨-, fn, f, -, he⟩ | ⟨-, -, rfl⟩ | ⟨-, -, rfl⟩ := hserve
    · exact h
    · exact exec_keeps_cursorLegal hrest he
    · exact exec_keeps_cursorLegal hrest he
    · simp [State.resetEvent]
    · simpa using h

theorem exec_setdir_illFormed (m : Dir) (s : State) (h : s.cursor = 3) :
    exec (.setdir m) s = .next (s.raiseRefused .cursorIllFormed) := by
  rw [show exec (.setdir m) s = .next (s.operate (setDirection m)) from rfl, State.operate_illFormed _ _ h]

theorem exec_wrb_illFormed (t : Target) (d : Byte) (s : State) (ht : t.writable = true) (h : s.cursor = 3) :
    exec (.wrb t d) s = .next (s.raiseRefused .cursorIllFormed) := by
  rw [show exec (.wrb t d) s = execWrb t d s from rfl, execWrb, if_pos ht, State.operate_illFormed _ _ h]

theorem exec_rdb_illFormed (t : Target) (s : State) (ht : t.readable = true) (h : s.cursor = 3) :
    exec (.rdb t) s = .next (s.raiseRefused .cursorIllFormed) := by
  rw [show exec (.rdb t) s = execRdb t s from rfl, execRdb, if_pos ht, State.operate_illFormed _ _ h]

/-- Settles O32: every step keeps a legal cursor legal, and at cursor 3 each operation and each input is refused. -/
theorem cursorThreeIsRefused : Obligations.CursorThreeIsRefused :=
  ⟨by decide, fun _ _ => step_keeps_cursorLegal, fun s h =>
    ⟨fun m => exec_setdir_illFormed m s h, fun t d ht => exec_wrb_illFormed t d s ht h,
      fun t ht => exec_rdb_illFormed t s ht h, fun _ _ hp => step_illFormed hp h⟩⟩

end Sys2Proof.Machine

namespace Sys2Proof.Machine

/-! ### Memory: the byte order of a 24-bit value (20_memory.md R39, R40) -/

/-- Bit `i` of a joined value is a bit of the byte it falls into, byte 0 lowest: the other two have none there. -/
theorem join3_getLsbD (b0 b1 b2 : Byte) (i : Nat) :
    (join3 b0 b1 b2).getLsbD i =
      if i < 8 then b0.getLsbD i else if i < 16 then b1.getLsbD (i - 8) else b2.getLsbD (i - 16) := by
  have h0 : 8 ≤ i → b0.getLsbD i = false := BitVec.getLsbD_of_ge b0 i
  have h1 : 8 ≤ i - 8 → b1.getLsbD (i - 8) = false := BitVec.getLsbD_of_ge b1 (i - 8)
  have h2 : 8 ≤ i - 16 → b2.getLsbD (i - 16) = false := BitVec.getLsbD_of_ge b2 (i - 16)
  simp only [join3, BitVec.getLsbD_or, BitVec.getLsbD_setWidth, BitVec.getLsbD_shiftLeft]
  split_ifs with h8 h16
  · simp [h8, show i < 16 by omega, show i < 24 by omega]
  · grind
  · grind

/-- Each bit of `v` goes into one byte of the split and comes back to its place. -/
theorem join3_split3 (v : U24) : join3 (split3 v).b0 (split3 v).b1 (split3 v).b2 = v := by
  apply BitVec.eq_of_getLsbD_eq
  intro i hi
  rw [join3_getLsbD]
  simp only [split3, BitVec.getLsbD_extractLsb']
  split_ifs with h8 h16
  · simp [h8]
  · simp [show i - 8 < 8 by omega, show 8 + (i - 8) = i by omega]
  · simp [show i - 16 < 8 by omega, show 16 + (i - 16) = i by omega]

/-- Settles O46: the two conversions are their definitions, and the round trip holds bit by bit. -/
theorem joinOfSplitIsTheValue : Obligations.JoinOfSplitIsTheValue :=
  ⟨fun _ => rfl, fun _ _ _ => rfl, join3_split3⟩

/-! ### Memory: the pairs of operation and target without a meaning (20_memory.md R45) -/

theorem exec_wrb_flags (t : Target) (d : Byte) (s : State) (ht : t.cls = .flags) :
    exec (.wrb t d) s = .next (s.raiseRefused .writeToFlags) := by
  have hw : ¬ t.writable = true := fun h => (writable_iff t).mp h ht
  rw [show exec (.wrb t d) s = execWrb t d s from rfl, execWrb, if_neg hw]

theorem exec_rdb_command (t : Target) (s : State) (ht : t.cls = .command) :
    exec (.rdb t) s = .next (s.raiseRefused .readFromCommand) := by
  have hr : ¬ t.readable = true := fun h => (readable_iff t).mp h ht
  rw [show exec (.rdb t) s = execRdb t s from rfl, execRdb, if_neg hr]

/-- Settles O27: each pair is refused before the cursor is looked at (log 8), and a refusal sets only the marks and the
result. -/
theorem writeToFlagsAndReadFromCommandRefused : Obligations.WriteToFlagsAndReadFromCommandRefused :=
  fun t d s => ⟨exec_wrb_flags t d s, exec_rdb_command t s⟩

/-! ### Memory: one operation at a time, and the complete trace (20_memory.md R47) -/

/-- On a legal cursor, an input that is done once it is served is the whole step. -/
theorem step_served {s u : State} {inp : HostInput} {rest : List HostInput} (h : s.pending = inp :: rest)
    (hc : s.cursor ≠ 3) (hu : serve inp { s with pending := rest } = .done u) : step s = .next u := by
  rw [step_cons h hc, hu]

/-- Settles O31: serving an input marked as early is its refusal (log 11). -/
theorem inputsDuringAnOperationRefused : Obligations.InputsDuringAnOperationRefused :=
  fun _ _ _ hc => ⟨fun h => step_served h hc rfl, fun h => step_served h hc rfl⟩

theorem exec_trace_prefix {i : Instr} {s t : State} (h : exec i s = .next t) : s.trace <+: t.trace := by
  obtain ⟨es, htrace, -⟩ := traceExplainsTheLines i s t h
  exact ⟨es, htrace.symm⟩

@[simp] theorem State.resetEvent_trace (s : State) : s.resetEvent.trace = s.trace := rfl

@[simp] theorem State.endRun_trace (s : State) : s.endRun.trace = s.trace := by simp [State.endRun]

/-- Settles O42: by the cases of a step; only an instruction adds events. -/
theorem traceGrowsAtItsEndOnly : Obligations.TraceGrowsAtItsEndOnly := by
  intro s t hstep
  obtain ⟨-, rfl⟩ | ⟨inp, rest, -, hserve⟩ := step_cases hstep
  · exact List.prefix_rfl
  · obtain ⟨r, rfl⟩ | ⟨-, c, i, -, -, he⟩ | ⟨-, fn, f, -, he⟩ | ⟨-, -, rfl⟩ | ⟨-, -, rfl⟩ := hserve
    · exact List.prefix_rfl
    · exact exec_trace_prefix (s := { s with pending := rest }) he
    · exact exec_trace_prefix (s := { s with pending := rest }) he
    · simp
    · simp

end Sys2Proof.Machine

namespace Sys2Proof

/-! ### Encoding: the request words that decode (30_encoding.md R54 to R58) -/

theorem mode_decodeMode : ∀ m : BitVec 1, (decodeMode m).mode = m := by decide

/-- The check of R58 for `WriteToFlags` finds the targets `WRB` may not name. -/
theorem writable_iff_code (t : Target) : t.writable = true ↔ t.code.extractLsb' 1 2 ≠ 0b10#2 := by
  cases t <;> decide

/-- The check of R58 for `ReadFromCommand` finds the targets `RDB` may not name. -/
theorem readable_iff_code (t : Target) : t.readable = true ↔ t.code.extractLsb' 1 2 ≠ 0b01#2 := by
  cases t <;> decide

theorem wf_wrb (t : Target) (d : Byte) : (Instr.wrb t d).wf = t.writable := by cases t <;> rfl

theorem wf_rdb (t : Target) : (Instr.rdb t).wf = t.readable := by cases t <;> rfl

theorem decodeWrb_eq_ok_iff {w : ReqWord} {t : Target} (ht : t.code = w.tgt) (i : Instr) :
    decodeWrb t w = .ok i ↔ t.writable = true ∧ w.rsv = 0 ∧ w.mode = 0 ∧ i = .wrb t w.data := by
  rw [decodeWrb, writable_iff_code, ht]
  split_ifs <;> grind

theorem decodeRdb_eq_ok_iff {w : ReqWord} {t : Target} (ht : t.code = w.tgt) (i : Instr) :
    decodeRdb t w = .ok i ↔ t.readable = true ∧ w.rsv = 0 ∧ w.mode = 0 ∧ w.data = 0 ∧ i = .rdb t := by
  rw [decodeRdb, readable_iff_code, ht]
  split_ifs <;> grind

theorem decodeRequest_op_reserved {w : ReqWord} (h0 : w.op ≠ 0) (h1 : w.op ≠ 1) (h2 : w.op ≠ 2) :
    decodeRequest w = .error .reservedOp := if_pos ⟨h0, h1, h2⟩

theorem decodeRequest_op_setdir {w : ReqWord} (h : w.op = 0) :
    decodeRequest w = if w.tgt ≠ 0 ∨ w.rsv ≠ 0 ∨ w.data ≠ 0 then .error .nonzeroReservedField
      else .ok (.setdir (decodeMode w.mode)) := by
  simp [decodeRequest, h]

theorem decodeRequest_tgt_reserved {w : ReqWord} (h : w.op = 1 ∨ w.op = 2) (ht : decodeTarget w.tgt = none) :
    decodeRequest w = .error .reservedTarget := by
  obtain h | h := h <;> simp [decodeRequest, h, ht]

theorem decodeRequest_op_wrb {w : ReqWord} {t : Target} (h : w.op = 1) (ht : t.code = w.tgt) :
    decodeRequest w = decodeWrb t w := by
  simp [decodeRequest, h, ← ht, decodeTarget_code]

theorem decodeRequest_op_rdb {w : ReqWord} {t : Target} (h : w.op = 2) (ht : t.code = w.tgt) :
    decodeRequest w = decodeRdb t w := by
  simp [decodeRequest, h, ← ht, decodeTarget_code]

/-- What a request word that decodes is: one of the three operations, with its must-be-zero fields zero. -/
theorem decodeRequest_ok_cases {w : ReqWord} {i : Instr} (h : decodeRequest w = .ok i) :
    (w.op = 0 ∧ w.tgt = 0 ∧ w.rsv = 0 ∧ w.data = 0 ∧ i = .setdir (decodeMode w.mode)) ∨
    (w.op = 1 ∧ w.rsv = 0 ∧ w.mode = 0 ∧ ∃ t, t.code = w.tgt ∧ t.writable = true ∧ i = .wrb t w.data) ∨
    (w.op = 2 ∧ w.rsv = 0 ∧ w.mode = 0 ∧ w.data = 0 ∧ ∃ t, t.code = w.tgt ∧ t.readable = true ∧ i = .rdb t) := by
  by_cases h0 : w.op = 0
  · rw [decodeRequest_op_setdir h0] at h
    split_ifs at h with hz
    cases h
    simp only [not_or, not_not] at hz
    exact .inl ⟨h0, hz.1, hz.2.1, hz.2.2, rfl⟩
  by_cases h12 : w.op = 1 ∨ w.op = 2
  case neg =>
    rw [not_or] at h12
    rw [decodeRequest_op_reserved h0 h12.1 h12.2] at h
    cases h
  cases htgt : decodeTarget w.tgt with
  | none => rw [decodeRequest_tgt_reserved h12 htgt] at h; cases h
  | some t =>
    have ht := code_of_decodeTarget _ t htgt
    obtain h1 | h2 := h12
    · rw [decodeRequest_op_wrb h1 ht, decodeWrb_eq_ok_iff ht] at h
      obtain ⟨hwr, hr, hm, rfl⟩ := h
      exact .inr (.inl ⟨h1, hr, hm, t, ht, hwr, rfl⟩)
    · rw [decodeRequest_op_rdb h2 ht, decodeRdb_eq_ok_iff ht] at h
      obtain ⟨hrd, hr, hm, hd, rfl⟩ := h
      exact .inr (.inr ⟨h2, hr, hm, hd, t, ht, hrd, rfl⟩)

/-- A request word that decodes is the word of a well-formed operation: put together again, its fields are the word. -/
theorem encode_of_decodeRequest {w : ReqWord} {i : Instr} (h : decodeRequest w = .ok i) :
    i.wf = true ∧ encode i = .req w := by
  have hw := congrArg CodeWord.req (requestWord_of_fields w)
  obtain ⟨hop, ht, hr, hd, rfl⟩ | ⟨hop, hr, hm, t, ht, hwr, rfl⟩ | ⟨hop, hr, hm, hd, t, ht, hrd, rfl⟩ :=
    decodeRequest_ok_cases h
  · rw [hop, ht, hr, hd, ← mode_decodeMode w.mode] at hw
    exact ⟨rfl, hw⟩
  · rw [hop, ← ht, hr, hm] at hw
    exact ⟨(wf_wrb t w.data).trans hwr, hw⟩
  · rw [hop, ← ht, hr, hm, hd] at hw
    exact ⟨(wf_rdb t).trans hrd, hw⟩

theorem decodeRequest_setdirWord (m : Dir) : decodeRequest (requestWord 0b000 0b000 0 m.mode 0) = .ok (.setdir m) := by
  cases m <;> rfl

theorem decodeRequest_wrbWord {t : Target} (d : Byte) (h : t.writable = true) :
    decodeRequest (requestWord 0b001 t.code 0 0 d) = .ok (.wrb t d) := by
  obtain ⟨hop, htgt, hrsv, hmode, hdata⟩ := fields_of_requestWord 0b001 t.code 0 0 d
  rw [decodeRequest_op_wrb hop htgt.symm, decodeWrb_eq_ok_iff htgt.symm, hdata]
  exact ⟨h, hrsv, hmode, rfl⟩

theorem decodeRequest_rdbWord {t : Target} (h : t.readable = true) :
    decodeRequest (requestWord 0b010 t.code 0 0 0) = .ok (.rdb t) := by
  obtain ⟨hop, htgt, hrsv, hmode, hdata⟩ := fields_of_requestWord 0b010 t.code 0 0 0
  rw [decodeRequest_op_rdb hop htgt.symm, decodeRdb_eq_ok_iff htgt.symm]
  exact ⟨h, hrsv, hmode, hdata, rfl⟩

/-! ### Encoding: the rows of a command byte (30_encoding.md R62 to R64, R68) -/

/-- The row of the opcode table for a bit `A` and a register, with a flag argument (R63). -/
def rowInstr (a : BitVec 1) (r : CommandReg) (f : Nat) : Instr :=
  match r with
  | .rld => if a = 0 then .rldAxis f else .rldBase f
  | .cmr => if a = 0 then .cmrAxis f else .cmrBase f
  | .ior => if a = 0 then .iorAxis f else .iorBase f
  | .idr => if a = 0 then .idrAxis f else .idrBase f

theorem decodeCommand_eq_rowInstr (b : Byte) :
    decodeCommand b = rowInstr (cmdA b) (decodeSel (cmdSel b)) (cmdF b).toNat := by
  cases h : decodeSel (cmdSel b) <;> simp only [decodeCommand, rowInstr, h]

theorem fields_of_commandByte (a : BitVec 1) (r : CommandReg) (f : BitVec 5) :
    cmdA (commandByte a r f) = a ∧ cmdSel (commandByte a r f) = r.sel ∧ cmdF (commandByte a r f) = f := by
  cases r <;> revert a f <;> decide

theorem decodeCommand_commandByte (a : BitVec 1) (r : CommandReg) (f : BitVec 5) :
    decodeCommand (commandByte a r f) = rowInstr a r f.toNat := by
  obtain ⟨ha, hsel, hf⟩ := fields_of_commandByte a r f
  rw [decodeCommand_eq_rowInstr, ha, hsel, hf, decodeSel_sel]

theorem encode_rowInstr (a : BitVec 1) (r : CommandReg) (f : Nat) :
    encode (rowInstr a r f) = .cmd (commandByte a r (BitVec.ofNat 5 f)) := by
  obtain rfl | rfl := BitVec.eq_zero_or_eq_one a <;> cases r <;> rfl

theorem wf_rowInstr (a : BitVec 1) (r : CommandReg) (f : Nat) : (rowInstr a r f).wf = true ↔ f ≤ 0x1F := by
  obtain rfl | rfl := BitVec.eq_zero_or_eq_one a <;> cases r <;>
    simp [rowInstr, Instr.wf, Instr.illFormed, flagsFit]

theorem decode_encode_rowInstr (a : BitVec 1) (r : CommandReg) (f : Nat) (h : (rowInstr a r f).wf = true) :
    decode (encode (rowInstr a r f)) = .ok (rowInstr a r f) := by
  have hf : (BitVec.ofNat 5 f).toNat = f := Nat.mod_eq_of_lt (Nat.lt_succ_of_le ((wf_rowInstr a r f).mp h))
  rw [encode_rowInstr, decode, decodeCommand_commandByte, hf]

/-- Every command byte is the word of its row, which is well formed. -/
theorem encode_of_decodeCommand (b : Byte) : (decodeCommand b).wf = true ∧ encode (decodeCommand b) = .cmd b := by
  rw [decodeCommand_eq_rowInstr, wf_rowInstr, encode_rowInstr, BitVec.ofNat_toNat, BitVec.setWidth_eq,
    commandByte_of_fields]
  exact ⟨Nat.le_of_lt_succ (cmdF b).isLt, rfl⟩

/-- Settles O2: an operation is decoded from the fields its word was put together from, and so is a row. -/
theorem decodeOfEncodeIsTheInstruction : Obligations.DecodeOfEncodeIsTheInstruction := by
  intro i h
  cases i with
  | setdir m => exact decodeRequest_setdirWord m
  | wrb t d => exact decodeRequest_wrbWord d ((wf_wrb t d).symm.trans h)
  | rdb t => exact decodeRequest_rdbWord ((wf_rdb t).symm.trans h)
  | rldAxis f => exact decode_encode_rowInstr 0 .rld f h
  | rldBase f => exact decode_encode_rowInstr 1 .rld f h
  | cmrAxis f => exact decode_encode_rowInstr 0 .cmr f h
  | cmrBase f => exact decode_encode_rowInstr 1 .cmr f h
  | iorAxis f => exact decode_encode_rowInstr 0 .ior f h
  | iorBase f => exact decode_encode_rowInstr 1 .ior f h
  | idrAxis f => exact decode_encode_rowInstr 0 .idr f h
  | idrBase f => exact decode_encode_rowInstr 1 .idr f h

/-- Settles O3: in both formats a word is its fields put together, and decoding keeps them all. -/
theorem encodeOfDecodeIsTheWord : Obligations.EncodeOfDecodeIsTheWord := by
  intro c i h
  cases c with
  | req w => exact encode_of_decodeRequest h
  | cmd b => cases h; exact encode_of_decodeCommand b

/-! ### Encoding: the refused request words (30_encoding.md R59) -/

theorem op_toNat (w : ReqWord) : w.op.toNat = w.toNat / 0x2000 := by
  simp only [ReqWord.op, BitVec.extractLsb'_toNat, Nat.shiftRight_eq_div_pow]
  omega

/-- The four ranges of a request word that the check of `OP` tells apart. -/
theorem op_cases (w : ReqWord) :
    (w.toNat < 0x2000 ∧ w.op = 0) ∨ (0x2000 ≤ w.toNat ∧ w.toNat < 0x4000 ∧ w.op = 1) ∨
    (0x4000 ≤ w.toNat ∧ w.toNat < 0x6000 ∧ w.op = 2) ∨ (0x6000 ≤ w.toNat ∧ w.op ≠ 0 ∧ w.op ≠ 1 ∧ w.op ≠ 2) := by
  have h := op_toNat w
  bv_omega

theorem bit_ne_zero_iff : ∀ b : BitVec 1, b ≠ 0 ↔ b.getLsbD 0 = true := by decide

theorem rsv_ne_zero_iff (w : ReqWord) : w.rsv ≠ 0 ↔ w.getLsbD 9 = true := by
  rw [bit_ne_zero_iff, ReqWord.rsv, BitVec.getLsbD_extractLsb']
  rfl

theorem mode_ne_zero_iff (w : ReqWord) : w.mode ≠ 0 ↔ w.getLsbD 8 = true := by
  rw [bit_ne_zero_iff, ReqWord.mode, BitVec.getLsbD_extractLsb']
  rfl

theorem tgt_getLsbD_two (w : ReqWord) : w.tgt.getLsbD 2 = w.getLsbD 12 := by simp [ReqWord.tgt]

theorem tgt_getLsbD_one (w : ReqWord) : w.tgt.getLsbD 1 = w.getLsbD 11 := by simp [ReqWord.tgt]

/-- `RSV`, `MODE` and `DATA` are the low ten bits. -/
theorem lowFields_ne_zero_iff (w : ReqWord) :
    w.rsv ≠ 0 ∨ w.mode ≠ 0 ∨ w.data ≠ 0 ↔ w.extractLsb' 0 10 ≠ 0 := by
  simp only [ReqWord.rsv, ReqWord.mode, ReqWord.data, ne_eq, BitVec.toNat_eq, BitVec.extractLsb'_toNat,
    Nat.shiftRight_eq_div_pow, BitVec.ofNat_eq_ofNat, BitVec.toNat_ofNat]
  omega

/-- Under `SETDIR` the two words with no must-be-zero field set are those of the two directions. -/
theorem setdirFields_ne_zero_iff {w : ReqWord} (h : w.toNat < 0x2000) :
    w.tgt ≠ 0 ∨ w.rsv ≠ 0 ∨ w.data ≠ 0 ↔ w ≠ 0x0000 ∧ w ≠ 0x0100 := by
  simp only [ReqWord.tgt, ReqWord.rsv, ReqWord.data, ne_eq, BitVec.toNat_eq, BitVec.extractLsb'_toNat,
    Nat.shiftRight_eq_div_pow, BitVec.ofNat_eq_ofNat, BitVec.toNat_ofNat]
  omega

/-! The two high bits of a target code tell the classes apart: 00 data, 01 command, 10 flags, 11 reserved (R56). -/

theorem reservedCode_iff : ∀ c : BitVec 3, decodeTarget c = none ↔ c.getLsbD 2 = true ∧ c.getLsbD 1 = true := by decide

theorem flagsCode_iff : ∀ c : BitVec 3,
    c.extractLsb' 1 2 = 0b10#2 ↔ c.getLsbD 2 = true ∧ c.getLsbD 1 = false := by decide

theorem commandCode_iff : ∀ c : BitVec 3,
    c.extractLsb' 1 2 = 0b01#2 ↔ c.getLsbD 2 = false ∧ c.getLsbD 1 = true := by decide

/-- The checks under `WRB` in their order, on the bits of the word. -/
theorem decodeRequest_wrb_checks {w : ReqWord} (h : w.op = 1) :
    ∃ i, decodeRequest w =
      if w.getLsbD 12 = true then
        if w.getLsbD 11 = true then .error .reservedTarget else .error .writeToFlags
      else if w.getLsbD 9 = true ∨ w.getLsbD 8 = true then .error .nonzeroReservedField
      else .ok i := by
  have hnone := reservedCode_iff w.tgt
  rw [tgt_getLsbD_two, tgt_getLsbD_one] at hnone
  cases htgt : decodeTarget w.tgt with
  | none =>
    obtain ⟨h12, h11⟩ := hnone.mp htgt
    exact ⟨.setdir .input, by rw [decodeRequest_tgt_reserved (.inl h) htgt, if_pos h12, if_pos h11]⟩
  | some t =>
    refine ⟨.wrb t w.data, ?_⟩
    rw [decodeRequest_op_wrb h (code_of_decodeTarget _ t htgt)]
    simp only [decodeWrb, flagsCode_iff, tgt_getLsbD_two, tgt_getLsbD_one, rsv_ne_zero_iff, mode_ne_zero_iff]
    grind

/-- The checks under `RDB` in their order, on the bits of the word. -/
theorem decodeRequest_rdb_checks {w : ReqWord} (h : w.op = 2) :
    ∃ i, decodeRequest w =
      if w.getLsbD 11 = true then
        if w.getLsbD 12 = true then .error .reservedTarget else .error .readFromCommand
      else if w.extractLsb' 0 10 ≠ 0 then .error .nonzeroReservedField
      else .ok i := by
  have hnone := reservedCode_iff w.tgt
  rw [tgt_getLsbD_two, tgt_getLsbD_one] at hnone
  cases htgt : decodeTarget w.tgt with
  | none =>
    obtain ⟨h12, h11⟩ := hnone.mp htgt
    exact ⟨.setdir .input, by rw [decodeRequest_tgt_reserved (.inr h) htgt, if_pos h11, if_pos h12]⟩
  | some t =>
    refine ⟨.rdb t, ?_⟩
    rw [decodeRequest_op_rdb h (code_of_decodeTarget _ t htgt)]
    simp only [decodeRdb, commandCode_iff, tgt_getLsbD_two, tgt_getLsbD_one, lowFields_ne_zero_iff]
    grind

/-- Settles O4: by the four ranges that `OP` tells apart, each with its checks in the order of R58. -/
theorem requestWordRefusedByItsFirstFailedCheck : Obligations.RequestWordRefusedByItsFirstFailedCheck := by
  intro w
  rw [decode]
  obtain ⟨hw, hop⟩ | ⟨hlo, hhi, hop⟩ | ⟨hlo, hhi, hop⟩ | ⟨hw, h0, h1, h2⟩ := op_cases w
  · simp only [decodeRequest_op_setdir hop, setdirFields_ne_zero_iff hw]
    grind
  · obtain ⟨i, hi⟩ := decodeRequest_wrb_checks hop
    rw [hi]
    grind
  · obtain ⟨i, hi⟩ := decodeRequest_rdb_checks hop
    rw [hi]
    grind
  · rw [decodeRequest_op_reserved h0 h1 h2]
    grind

end Sys2Proof

namespace Sys2Proof.Machine

/-! ### Encoding: the spec's examples (30_encoding.md R72) -/

/-- Settles O1: each word is decoded by computation. -/
theorem specEncodingExamplesDecode : Obligations.SpecEncodingExamplesDecode :=
  ⟨rfl, rfl, rfl, rfl, rfl, rfl, rfl, rfl, rfl, rfl, rfl, rfl, rfl, rfl, rfl⟩

/-! ### Encoding: a command byte and the functions that build it (30_encoding.md R64, R68) -/

theorem commandByte_eq_or (a : BitVec 1) (r : CommandReg) (f : BitVec 5) :
    commandByte a r f = (a.setWidth 8 <<< 7) ||| (r.sel.setWidth 8 <<< 5) ||| f.setWidth 8 := by
  cases r <;> revert a f <;> decide

/-- OR'ing a flag value that fits into the base byte of a row fills the field `F`. -/
theorem commandByte_or_flags (a : BitVec 1) (r : CommandReg) {f : Nat} (h : f ≤ 0x1F) :
    commandByte a r 0 ||| BitVec.ofNat 8 f = commandByte a r (BitVec.ofNat 5 f) := by
  have hf : (BitVec.ofNat 5 f).setWidth 8 = BitVec.ofNat 8 f := by bv_omega
  simp only [commandByte_eq_or, hf, BitVec.ofNat_eq_ofNat, BitVec.setWidth_zero, BitVec.or_zero]

/-- Running a row OR's the flag argument into the row's base byte and delivers what comes of it. -/
theorem exec_rowInstr (a : BitVec 1) (r : CommandReg) (f : Nat) (s : State) :
    exec (rowInstr a r f) s = .next (s.answerEncoder (encodeFlags (commandByte a r 0) f)) := by
  obtain rfl | rfl := BitVec.eq_zero_or_eq_one a <;> cases r <;> rfl

/-- The bit `A` of the bytes a function builds (R64): 1 for the base functions. -/
def fnBit : EncoderFn → BitVec 1
  | .reloadX | .reloadY | .modeControlX | .modeControlY => 0
  | .ioControlX | .ioControlY | .indexControlX | .indexControlY => 0
  | .reload | .modeControl | .ioControl | .indexControl => 1

/-- The register whose bytes a function builds. -/
def fnReg : EncoderFn → CommandReg
  | .reloadX | .reloadY | .reload => .rld
  | .modeControlX | .modeControlY | .modeControl => .cmr
  | .ioControlX | .ioControlY | .ioControl => .ior
  | .indexControlX | .indexControlY | .indexControl => .idr

theorem fnInstr_eq_rowInstr (fn : EncoderFn) (f : Nat) : fnInstr fn f = rowInstr (fnBit fn) (fnReg fn) f := by
  cases fn <;> rfl

theorem applyFn_eq_encodeFlags (fn : EncoderFn) (f : Nat) :
    applyFn fn f = encodeFlags (commandByte (fnBit fn) (fnReg fn) 0) f := by
  cases fn <;> rfl

/-- Settles O5: a function OR's its flag value into the base byte of its row, so it builds the byte of the fields. -/
theorem commandByteIsItsFieldsJoinedByOr : Obligations.CommandByteIsItsFieldsJoinedByOr := by
  refine ⟨commandByte_eq_or, fun fn f h => ⟨commandByte (fnBit fn) (fnReg fn) (BitVec.ofNat 5 f), ?_, ?_⟩,
    fun fn f h => ?_⟩
  · rw [applyFn_eq_encodeFlags, encodeFlags_fits _ _ h, commandByte_or_flags _ _ h]
  · rw [fnInstr_eq_rowInstr, encode_rowInstr]
  · rw [applyFn_eq_encodeFlags, encodeFlags_wide _ _ h]

theorem exec_decodeCommand (b : Byte) (s : State) : exec (decodeCommand b) s = .next { s with result := some b } := by
  have hf : (cmdF b).toNat ≤ 0x1F := Nat.le_of_lt_succ (cmdF b).isLt
  rw [decodeCommand_eq_rowInstr, exec_rowInstr, encodeFlags_fits _ _ hf, commandByte_or_flags _ _ hf,
    BitVec.ofNat_toNat, BitVec.setWidth_eq, commandByte_of_fields, State.answerEncoder_ok]

/-- Settles O12: the flags of a byte's row fit, and the row gives the byte of its fields to the host (log 10). -/
theorem commandByteRunsToItself : Obligations.CommandByteRunsToItself :=
  fun b s => ⟨decodeCommand b, rfl, exec_decodeCommand b s⟩

/-! ### Encoding: immediates (30_encoding.md R70) -/

theorem assembleWrb_byte {t : Target} {w : String} {n : Nat} (ht : t.writable = true) (hw : integer w = some n)
    (hn : n ≤ 255) : assembleWrb (some t) w = .words [encode (.wrb t (BitVec.ofNat 8 n))] := by
  simp [assembleWrb, imm8, ht, hw, hn]

theorem assembleWrb_wide {t : Target} {w : String} {n : Nat} (ht : t.writable = true) (hw : integer w = some n)
    (hn : 255 < n) : assembleWrb (some t) w = .refused .immediateRange := by
  simp [assembleWrb, imm8, ht, hw, Nat.not_le.mpr hn]

theorem assembleWrb_noInteger {t : Target} {w : String} (ht : t.writable = true) (hw : integer w = none) :
    assembleWrb (some t) w = .refused .immediateRange := by
  simp [assembleWrb, imm8, ht, hw]

/-- The decimal digit of a value. -/
def decChar (d : Fin 10) : Char := Char.ofNat (48 + d.val)

/-- The lower-case hexadecimal digit of a value. -/
def hexChar (d : Fin 16) : Char := Char.ofNat (if d.val < 10 then 48 + d.val else 87 + d.val)

theorem decDigit_decChar : ∀ d : Fin 10, decDigit (decChar d) = some d.val := by decide

theorem hexDigit_hexChar : ∀ d : Fin 16, hexDigit (hexChar d) = some d.val := by decide

theorem decChar_ne_x : ∀ d : Fin 10, decChar d ≠ 'x' := by decide

/-- Digits read in their base spell the value they have there. -/
theorem digits_map {k base : Nat} {digit : Char → Option Nat} {char : Fin k → Char}
    (h : ∀ d, digit (char d) = some d.val) (acc : Nat) (ds : List (Fin k)) :
    digits base digit acc (ds.map char) = some (ds.foldl (fun n d => n * base + d.val) acc) := by
  induction ds generalizing acc with
  | nil => rfl
  | cons d ds ih => simp only [List.map_cons, digits, h, ih, List.foldl_cons]

/-- A word of decimal digits is not read as `0x`-hexadecimal. -/
theorem integer_decChars {ds : List (Fin 10)} (h : ds ≠ []) :
    integer (String.ofList (ds.map decChar)) = digits 10 decDigit 0 (ds.map decChar) := by
  rw [integer, String.toList_ofList]
  split
  case h_1 hnil => exact absurd (List.map_eq_nil_iff.mp hnil) h
  case h_2 c cs hhex =>
    obtain ⟨d, -, hx⟩ := List.mem_map.mp (hhex ▸ (by simp) : 'x' ∈ ds.map decChar)
    exact absurd hx (decChar_ne_x d)
  case h_3 => rfl

theorem integer_hexChars {ds : List (Fin 16)} (h : ds ≠ []) :
    integer (String.ofList ('0' :: 'x' :: ds.map hexChar)) = digits 16 hexDigit 0 (ds.map hexChar) := by
  rw [integer, String.toList_ofList]
  cases ds with
  | nil => exact absurd rfl h
  | cons d ds => rfl

/-- Settles O60: the three outcomes of reading the immediate, and what a word of digits is read as. -/
theorem assembledImmediateIsAByteOrRefused : Obligations.AssembledImmediateIsAByteOrRefused :=
  ⟨fun _ _ ht => ⟨fun _ => assembleWrb_byte ht, fun _ => assembleWrb_wide ht, assembleWrb_noInteger ht⟩,
    fun ds h => (integer_decChars h).trans (digits_map decDigit_decChar 0 ds),
    fun ds h => (integer_hexChars h).trans (digits_map hexDigit_hexChar 0 ds)⟩

end Sys2Proof.Machine

namespace Sys2Proof.Machine

/-! ### Bus direction: the words of `SETDIR` (40_bus_direction.md R73) -/

theorem encode_setdir (m : Dir) : encode (.setdir m) = .req (if m = .input then 0x0000 else 0x0100) := by
  cases m <;> rfl

theorem decode_setdir_malformed {w : ReqWord} (hop : w.toNat < 0x2000) (hin : w ≠ 0x0000) (hout : w ≠ 0x0100) :
    decode (.req w) = .error .nonzeroReservedField := by
  have h0 : w.op = 0 := by
    have h := op_toNat w
    bv_omega
  rw [decode, decodeRequest_op_setdir h0, if_pos ((setdirFields_ne_zero_iff hop).mpr ⟨hin, hout⟩)]

/-! ### Bus direction: the direction switch (40_bus_direction.md R73 to R77) -/

theorem setDirection_chip_readHigh (m : Dir) (s : State) (h : s.pins.rdN = .high) :
    (setDirection m s).chip = s.chip := by
  rw [setDirection_chip]
  cases s.chip with
  | none => rfl
  | some c => exact congrArg some (chipReplay_dirSwitch _ _ _ _ h)

theorem setDirection_noChip (m : Dir) (s : State) (h : s.chip = none) : (setDirection m s).chip = none := by
  rw [setDirection_chip, h, Option.map_none]

theorem setDirection_twice_pins (m : Dir) (s : State) :
    (setDirection m (setDirection m s)).pins = (setDirection m s).pins := by
  simp

/-- The `V4` of the first `SETDIR` has set the mark already when the second one finds the same cursor. -/
theorem setDirection_twice_viol (m : Dir) (s : State) :
    (setDirection m (setDirection m s)).viol = (setDirection m s).viol := by
  simp

/-- Settles O15: replaying the three events writes the latch, then the mode, and waits. -/
theorem directionSwitchKeepsControlLines : Obligations.DirectionSwitchKeepsControlLines := replay_dirSwitch

/-- Settles O13: on a legal cursor `SETDIR` is `setDirection`, whose every field has its law. -/
theorem setdirWritesDirAndDoutOnly : Obligations.SetdirWritesDirAndDoutOnly := by
  refine ⟨encode_setdir, fun _ => decode_setdir_malformed, fun m s hc => ⟨_, exec_setdir_legal m s hc, ?_⟩⟩
  have hv4 : (setDirection m s).violations = s.violations ++ (if s.cursor = 0 then [] else [.v4]) := by simp
  exact ⟨setDirection_pins m s, setDirection_trace m s, setDirection_cursor m s, setDirection_cycleAxis m s,
    setDirection_result m s, setDirection_viol m s, hv4, setDirection_refused m s, setDirection_refusals m s,
    setDirection_pending m s, setDirection_params m s, setDirection_draws m s, setDirection_noChip m s,
    setDirection_chip_readHigh m s⟩

/-- Settles O14: the first `SETDIR` keeps the cursor and the parameters, so the second one runs too and emits the same
three events. -/
theorem setdirTwiceRepeatsTheTrace : Obligations.SetdirTwiceRepeatsTheTrace := by
  intro m s hc
  have hc' : (setDirection m s).cursor ≠ 3 := (setDirection_cursor m s).trans_ne hc
  have htrace := setDirection_trace m (setDirection m s)
  rw [setDirection_params] at htrace
  exact ⟨_, _, exec_setdir_legal m s hc, exec_setdir_legal m _ hc', setDirection_twice_pins m s, setDirection_cursor m _,
    setDirection_cycleAxis m _, setDirection_twice_viol m s, setDirection_refused m _, setDirection_trace m s, htrace⟩

end Sys2Proof.Machine

namespace Sys2Proof.Machine

/-! ### The command encoder: calls and rows (41_command_encoder.md R78, R80 to R83) -/

/-- The constant an encoder function OR's its flag argument into: the byte of its row with an empty field `F`. -/
def fnBase (fn : EncoderFn) : Byte := commandByte (fnBit fn) (fnReg fn) 0

theorem applyFn_fits (fn : EncoderFn) {f : Nat} (h : f ≤ 0x1F) : applyFn fn f = .ok (fnBase fn ||| BitVec.ofNat 8 f) :=
  (applyFn_eq_encodeFlags fn f).trans (encodeFlags_fits _ _ h)

theorem applyFn_wide (fn : EncoderFn) {f : Nat} (h : 0x1F < f) : applyFn fn f = .error .flagsTooWide :=
  (applyFn_eq_encodeFlags fn f).trans (encodeFlags_wide _ _ h)

theorem encode_fnInstr_fits (fn : EncoderFn) {f : Nat} (h : f ≤ 0x1F) :
    encode (fnInstr fn f) = .cmd (fnBase fn ||| BitVec.ofNat 8 f) := by
  rw [fnInstr_eq_rowInstr, encode_rowInstr, fnBase, commandByte_or_flags _ _ h]

theorem exec_fnInstr_fits (fn : EncoderFn) {f : Nat} (s : State) (h : f ≤ 0x1F) :
    exec (fnInstr fn f) s = .next { s with result := some (fnBase fn ||| BitVec.ofNat 8 f) } := by
  rw [exec_fnInstr, applyFn_fits fn h, State.answerEncoder_ok]

theorem exec_fnInstr_wide (fn : EncoderFn) {f : Nat} (s : State) (h : 0x1F < f) :
    exec (fnInstr fn f) s = .next (s.raiseRefused .flagsTooWide) := by
  rw [exec_fnInstr, applyFn_wide fn h, State.answerEncoder_error]

/-- Settles O6: a function's row delivers what the function returns, its byte or its refusal. -/
theorem encoderCallsTouchNoControllerState : Obligations.EncoderCallsTouchNoControllerState :=
  fun fn _ s => ⟨fun h => ⟨_, applyFn_fits fn h, exec_fnInstr_fits fn s h⟩,
    fun h => ⟨applyFn_wide fn h, exec_fnInstr_wide fn s h⟩⟩

/-- What R80 to R83 say of one register, for its functions of the X axis, the Y axis and the base: the axis row is that of
the X function. -/
theorem registerRows_answer_their_byte (fnX fnY fnB : EncoderFn) (f : Nat) (s : State) :
    (f ≤ 0x1F →
      applyFn fnX f = .ok (fnBase fnX ||| BitVec.ofNat 8 f) ∧ applyFn fnY f = .ok (fnBase fnY ||| BitVec.ofNat 8 f) ∧
      applyFn fnB f = .ok (fnBase fnB ||| BitVec.ofNat 8 f) ∧
      encode (fnInstr fnX f) = .cmd (fnBase fnX ||| BitVec.ofNat 8 f) ∧
      encode (fnInstr fnB f) = .cmd (fnBase fnB ||| BitVec.ofNat 8 f) ∧
      exec (fnInstr fnX f) s = .next { s with result := some (fnBase fnX ||| BitVec.ofNat 8 f) } ∧
      exec (fnInstr fnB f) s = .next { s with result := some (fnBase fnB ||| BitVec.ofNat 8 f) }) ∧
    (0x1F < f →
      applyFn fnX f = .error .flagsTooWide ∧ applyFn fnY f = .error .flagsTooWide ∧
      applyFn fnB f = .error .flagsTooWide ∧
      exec (fnInstr fnX f) s = .next (s.raiseRefused .flagsTooWide) ∧
      exec (fnInstr fnB f) s = .next (s.raiseRefused .flagsTooWide)) :=
  ⟨fun h => ⟨applyFn_fits fnX h, applyFn_fits fnY h, applyFn_fits fnB h, encode_fnInstr_fits fnX h,
      encode_fnInstr_fits fnB h, exec_fnInstr_fits fnX s h, exec_fnInstr_fits fnB s h⟩,
    fun h => ⟨applyFn_wide fnX h, applyFn_wide fnY h, applyFn_wide fnB h, exec_fnInstr_wide fnX s h,
      exec_fnInstr_wide fnB s h⟩⟩

/-- Settles O7: the bases of the reload functions compute to 0x00 and 0x80. -/
theorem rldRowsAnswerTheirByte : Obligations.RldRowsAnswerTheirByte :=
  registerRows_answer_their_byte .reloadX .reloadY .reload

/-- Settles O8: the bases of the mode control functions compute to 0x20 and 0x80 | 0x20. -/
theorem cmrRowsAnswerTheirByte : Obligations.CmrRowsAnswerTheirByte :=
  registerRows_answer_their_byte .modeControlX .modeControlY .modeControl

/-- Settles O9: the bases of the I/O control functions compute to 0x40 and 0x80 | 0x40. -/
theorem iorRowsAnswerTheirByte : Obligations.IorRowsAnswerTheirByte :=
  registerRows_answer_their_byte .ioControlX .ioControlY .ioControl

/-- Settles O10: the bases of the index control functions compute to 0x60 and 0x80 | 0x60. -/
theorem idrRowsAnswerTheirByte : Obligations.IdrRowsAnswerTheirByte :=
  registerRows_answer_their_byte .indexControlX .indexControlY .indexControl

/-! ### The command encoder: transfer codes (41_command_encoder.md R86) -/

theorem or_twoTransferCodes (f : Nat) : f ||| xferPrToCntr ||| xferCntrToOl = f ||| xferPsc :=
  Nat.or_assoc f xferPrToCntr xferCntrToOl

theorem or_xferPsc_fits {f : Nat} (h : f ≤ 0x7) : f ||| xferPsc ≤ 0x1F := by
  have hf : f < 2 ^ 5 := by omega
  exact Nat.le_of_lt_succ (Nat.or_lt_two_pow hf (by decide))

/-- A two-bit code OR'd above three low flags is the field `F[4:3]` of the byte. -/
theorem transferField_or : ∀ (k : BitVec 2) (f : Fin 8),
    (cmdF (BitVec.ofNat 8 (f.val ||| k.toNat <<< 3))).extractLsb' 3 2 = k := by decide

/-- Settles O11: the two codes put together are the third one, whatever the low flags, so the functions and the field see
that one. -/
theorem twoTransferCodesEncodeTheThird : Obligations.TwoTransferCodesEncodeTheThird := by
  refine ⟨rfl, rfl, fun f h => ?_⟩
  have hfits := or_xferPsc_fits h
  have hfield (k : BitVec 2) := transferField_or k ⟨f, Nat.lt_succ_of_le h⟩
  rw [or_twoTransferCodes]
  exact ⟨applyFn_fits .reloadX hfits, applyFn_fits .reloadY hfits, applyFn_fits .reload hfits,
    hfield 0b01, hfield 0b10, hfield 0b11⟩

end Sys2Proof.Machine

namespace Sys2Proof.Machine

/-! ### The transaction engine: the word of a `WRB` (42_transaction_engine.md R93) -/

theorem decodeRequest_wrbWord_flags {t : Target} (d : Byte) (h : t.cls = .flags) :
    decodeRequest (requestWord 0b001 t.code 0 0 d) = .error .writeToFlags := by
  obtain ⟨hop, htgt, -⟩ := fields_of_requestWord 0b001 t.code 0 0 d
  have hcode : t.code.extractLsb' 1 2 = 0b10#2 :=
    not_not.mp fun hne => (writable_iff t).mp ((writable_iff_code t).mpr hne) h
  rw [decodeRequest_op_wrb hop htgt.symm, decodeWrb, htgt, if_pos hcode]

/-! ### The transaction engine: `WRB` (R93, R94, R96) -/

theorem writeByte_noChip (t : Target) (d : Byte) (s : State) (h : s.chip = none) : (writeByte t d s).chip = none := by
  rw [writeByte_chip, h, Option.map_none]

/-- A `WRB` adds the cause `V1` in the middle of a read cycle only (R96). -/
theorem writeByte_violations_ite (t : Target) (d : Byte) (s : State) :
    (writeByte t d s).violations = s.violations ++ (if s.cursor = 0 then [] else [.v1]) := by
  simp

/-- A `WRB` from any state leaves the lines deselected. -/
theorem writeByte_csN (t : Target) (d : Byte) (s : State) : (writeByte t d s).pins.csN = .high := by
  rw [writeByte_pins, replay_writeTrace]

/-- In the middle of a read cycle the cursor is legal. -/
theorem midCycle_cursor : ∀ k : BitVec 2, k = 1 ∨ k = 2 → k ≠ 0 ∧ k ≠ 3 := by decide

/-- Settles O16: on a legal cursor a `WRB` to a writable target is `writeByte`, whose every field has its law. -/
theorem wrbWritesItsLinesAndKeepsCursor : Obligations.WrbWritesItsLinesAndKeepsCursor := by
  refine fun t d s => ⟨decodeRequest_wrbWord_flags d, fun ht => decodeRequest_wrbWord d ((writable_iff t).mpr ht),
    fun ht hc => ⟨_, exec_wrb_legal t d s ((writable_iff t).mpr ht) hc, ?_⟩⟩
  exact ⟨writeByte_trace t d s, writeByte_pins t d s, writeByte_cursor t d s, writeByte_cycleAxis t d s,
    writeByte_result t d s, writeByte_viol t d s, writeByte_violations_ite t d s, writeByte_refused t d s,
    writeByte_refusals t d s, writeByte_pending t d s, writeByte_params t d s, writeByte_draws t d s,
    writeByte_noChip t d s⟩

/-- Settles O17: `writeTrace` is the nine events, its first three those of the direction switch. -/
theorem wrbEmitsItsNineEvents : Obligations.WrbEmitsItsNineEvents :=
  fun t d s ht hc => ⟨_, exec_wrb_legal t d s ht hc, writeByte_trace t d s⟩

/-- Settles O18: the cursor is kept away from 0, and event 4 raises chip-select from any lines. -/
theorem wrbMidCycleDesynchronises : Obligations.WrbMidCycleDesynchronises := by
  intro t d s ht hmid
  obtain ⟨h0, h3⟩ := midCycle_cursor _ hmid
  have hviol : (writeByte t d s).viol = true := by rw [writeByte_viol, bne_iff_ne.mpr h0, Bool.or_true]
  have hv1 : (writeByte t d s).violations = s.violations ++ [.v1] := by rw [writeByte_violations_ite, if_neg h0]
  have hcursor := writeByte_cursor t d s
  exact ⟨_, exec_wrb_legal t d s ht h3, hviol, hv1, writeByte_trace t d s, rfl, hcursor, hcursor.trans_ne h0,
    writeByte_csN t d s⟩

/-! ### The transaction engine: the lines during a `WRB` (R95, R97) -/

/-- No event of a run from lines `l` moves `CD` or `XY` while chip-select is low. -/
def SelectSteady (l : Pins) : List Event → Prop
  | [] => True
  | e :: es => (l.csN = .low → (e.apply l).cd = l.cd ∧ (e.apply l).xy = l.xy) ∧ SelectSteady (e.apply l) es

theorem SelectSteady.at_event {l : Pins} {before after : List Event} {e : Event}
    (h : SelectSteady l (before ++ e :: after)) (hcs : (replay l before).csN = .low) :
    (e.apply (replay l before)).cd = (replay l before).cd ∧
      (e.apply (replay l before)).xy = (replay l before).xy := by
  induction before generalizing l with
  | nil => exact h.1 hcs
  | cons b before ih => exact ih h.2 hcs

/-- Only event 5 of a `WRB` names the select lines, and event 4 has raised chip-select just before it. -/
theorem writeTrace_selectSteady (p : Params) (t : Target) (d : Byte) (l : Pins) :
    SelectSteady l (writeTrace p t d) :=
  ⟨fun _ => ⟨rfl, rfl⟩, fun _ => ⟨rfl, rfl⟩, fun _ => ⟨rfl, rfl⟩, fun _ => ⟨rfl, rfl⟩,
    fun hlow => Level.noConfusion hlow,
    fun _ => ⟨rfl, rfl⟩, fun _ => ⟨rfl, rfl⟩, fun _ => ⟨rfl, rfl⟩, fun _ => ⟨rfl, rfl⟩, trivial⟩

/-- Settles O19: steadiness along the whole trace gives it at each of its events. -/
theorem wrbSelectLinesSteadyUnderChipSelect : Obligations.WrbSelectLinesSteadyUnderChipSelect := by
  intro p t d l before after e htrace hcs
  have hsteady := writeTrace_selectSteady p t d l
  rw [htrace] at hsteady
  exact hsteady.at_event hcs

/-- The event leaves the data latch and the mode of the data lines as they are. -/
def Event.keepsData : Event → Bool
  | .busOut _ => false
  | .setMode _ => false
  | .wait _ => true
  | .drive _ => true
  | .sample => true

theorem Event.keepsData_apply {e : Event} (h : e.keepsData = true) (l : Pins) :
    (e.apply l).dout = l.dout ∧ (e.apply l).dir = l.dir := by
  cases e with
  | busOut v => cases h
  | setMode m => cases h
  | wait w => exact ⟨rfl, rfl⟩
  | drive w => exact ⟨rfl, rfl⟩
  | sample => exact ⟨rfl, rfl⟩

theorem replay_keepsData {es : List Event} (h : ∀ e ∈ es, e.keepsData = true) (l : Pins) :
    (replay l es).dout = l.dout ∧ (replay l es).dir = l.dir := by
  induction es generalizing l with
  | nil => exact ⟨rfl, rfl⟩
  | cons e es ih =>
    obtain ⟨he, hes⟩ := List.forall_mem_cons.mp h
    obtain ⟨hdout, hdir⟩ := ih hes (e.apply l)
    obtain ⟨hdout', hdir'⟩ := Event.keepsData_apply he l
    exact ⟨hdout.trans hdout', hdir.trans hdir'⟩

/-- Events 1 to 6 of a `WRB` (R94): up to the byte on the latch. -/
def writeSetup (p : Params) (t : Target) (d : Byte) : List Event := (writeTrace p t d).take 6

/-- Events 7 to 9 of a `WRB` (R94). -/
def writeStrobe (p : Params) (t : Target) (d : Byte) : List Event := (writeTrace p t d).drop 6

theorem writeTrace_eq_setup_append_strobe (p : Params) (t : Target) (d : Byte) :
    writeTrace p t d = writeSetup p t d ++ writeStrobe p t d := rfl

theorem writeStrobe_keepsData (p : Params) (t : Target) (d : Byte) :
    ∀ e ∈ writeStrobe p t d, e.keepsData = true := by
  simp [writeStrobe, writeTrace, dirSwitch, Event.keepsData]

/-- Settles O20: six events or more are events 1 to 6, which put the byte on driven lines, and events of the strobe,
which keep it. -/
theorem wrbDataHeldThroughTheStrobe : Obligations.WrbDataHeldThroughTheStrobe := by
  intro p t d l before after htrace hlen
  have hsplit := writeTrace_eq_setup_append_strobe p t d
  obtain ⟨strobe, rfl⟩ : writeSetup p t d <+: before :=
    List.prefix_of_prefix_length_le ⟨_, hsplit.symm⟩ ⟨_, htrace.symm⟩ hlen
  rw [hsplit, List.append_assoc, List.append_cancel_left_eq] at htrace
  have hkeeps : ∀ e ∈ strobe, e.keepsData = true := fun e he =>
    writeStrobe_keepsData p t d e (htrace ▸ List.mem_append_left after he)
  rw [replay_append]
  exact replay_keepsData hkeeps (replay l (writeSetup p t d))

/-! ### The transaction engine: `RDB` (R98 to R104) -/

theorem exec_rdb_data {t : Target} {s : State} (ht : t.cls = .data) (hc : s.cursor ≠ 3) :
    exec (.rdb t) s = .next (readByte t s) :=
  exec_rdb_legal t s ((readable_iff t).mpr (by simp [ht])) hc

theorem exec_rdb_flags {t : Target} {s : State} (ht : t.cls = .flags) (hc : s.cursor ≠ 3) :
    exec (.rdb t) s = .next (readByte t s) :=
  exec_rdb_legal t s ((readable_iff t).mpr (by simp [ht])) hc

theorem readByte_noChip (t : Target) (s : State) (h : s.chip = none) : (readByte t s).chip = none :=
  (readByte_open t s h).1

theorem readByte_data_cursor_eq {t : Target} (s : State) (ht : t.cls = .data) :
    (readByte t s).cursor = if s.cursor = 2 then 0 else s.cursor + 1 := by
  simp [ht]

theorem readByte_data_csN {t : Target} (s : State) (ht : t.cls = .data) :
    (readByte t s).pins.csN = if s.cursor = 2 then .high else .low := by
  simp [ht]

theorem readByte_dataClosing_csN {t : Target} {s : State} (ht : t.cls = .data) (hc : s.cursor = 2) :
    (readByte t s).pins.csN = .high :=
  (readByte_data_csN s ht).trans (if_pos hc)

theorem readByte_dataOpen_csN {t : Target} {s : State} (ht : t.cls = .data) (hc : s.cursor ≠ 2) :
    (readByte t s).pins.csN = .low :=
  (readByte_data_csN s ht).trans (if_neg hc)

theorem readByte_flags_cursor {t : Target} (s : State) (ht : t.cls = .flags) : (readByte t s).cursor = s.cursor := by
  simp [ht]

theorem readByte_flags_csN {t : Target} (s : State) (ht : t.cls = .flags) : (readByte t s).pins.csN = .high := by
  simp [ht]

/-- What the cycle check of a data read leaves in the state after the read (R104). -/
theorem readByte_data_check {t : Target} (s : State) (ht : t.cls = .data) :
    (readByte t s).cycleAxis = (if s.cursor = 0 then t.axis else s.cycleAxis) ∧
      (readByte t s).viol = (s.viol || (s.cursor != 0 && t.axis != s.cycleAxis)) ∧
      (readByte t s).violations =
        s.violations ++ (if s.cursor ≠ 0 ∧ t.axis ≠ s.cycleAxis then [.v2] else []) := by
  rw [readByte_cycleAxis, readByte_viol, readByte_violations]
  exact checkCycle_data t s ht

/-- What the cycle check of a flag read leaves in the state after the read (R104). -/
theorem readByte_flags_check {t : Target} (s : State) (ht : t.cls = .flags) :
    (readByte t s).cycleAxis = s.cycleAxis ∧ (readByte t s).viol = (s.viol || s.cursor != 0) ∧
      (readByte t s).violations = s.violations ++ (if s.cursor ≠ 0 then [.v3] else []) := by
  rw [readByte_cycleAxis, readByte_viol, readByte_violations]
  exact checkCycle_flags t s ht

/-- A flag read takes the full closure at every cursor (R102). -/
theorem readByte_flags_trace {t : Target} (s : State) (ht : t.cls = .flags) :
    (readByte t s).trace = s.trace ++ readOpening s.params t ++ [.sample, fullClosure, .wait (.ns 90)] := by
  have hclose : closureOf t s.cursor = fullClosure := if_pos (.inl ht)
  rw [readByte_trace, readTrace, hclose, List.append_assoc]

/-- Settles O21: the fields of `readByte` at a data target, whose closure is full at cursor 2 only. -/
theorem dataReadAdvancesCursorAndClosesAtTwo : Obligations.DataReadAdvancesCursorAndClosesAtTwo := by
  intro t s ht hc
  obtain ⟨v, hresult⟩ := readByte_result t s
  obtain ⟨haxis, -, -⟩ := readByte_data_check s ht
  have hpins := readByte_pins t s
  simp only [ht, reduceCtorEq, false_or] at hpins
  exact ⟨_, v, exec_rdb_data ht hc, hresult, hpins, readByte_data_cursor_eq s ht, haxis, readByte_refused t s,
    readByte_refusals t s, readByte_pending t s, readByte_params t s, readByte_noChip t s⟩

/-- Settles O22: the fields of `readByte` at a flags target, whose closure is always full. -/
theorem flagReadClosesAndKeepsCursor : Obligations.FlagReadClosesAndKeepsCursor := by
  intro t s ht hc
  obtain ⟨v, hresult⟩ := readByte_result t s
  obtain ⟨haxis, hviol, hv3⟩ := readByte_flags_check s ht
  rw [ite_not] at hv3
  have hpins := readByte_pins t s
  simp only [ht, true_or, if_true] at hpins
  have hcursor := readByte_flags_cursor s ht
  exact ⟨_, v, exec_rdb_flags ht hc, hresult, hpins, readByte_flags_trace s ht, hcursor,
    fun h0 => ⟨hcursor.trans_ne h0, readByte_flags_csN s ht⟩, haxis, hviol, hv3, readByte_refused t s,
    readByte_refusals t s, readByte_pending t s, readByte_params t s, readByte_noChip t s⟩

/-- Settles O23: `readTrace` is the nine events, event 8 the closure of its target and cursor. -/
theorem rdbEmitsItsNineEvents : Obligations.RdbEmitsItsNineEvents :=
  fun t s ht hc => ⟨_, exec_rdb_legal t s ht hc, readByte_trace t s, readByte_cursor t s⟩

/-- Settles O24: the marks of a read are those of its cycle check, and the cursor moves on whatever the axis. -/
theorem readsCheckTheOpenCycle : Obligations.ReadsCheckTheOpenCycle := by
  refine fun t s hc => ⟨fun ht => ?_, fun ht => ⟨_, exec_rdb_flags ht hc, readByte_flags_check s ht⟩⟩
  obtain ⟨haxis, hviol, hv2⟩ := readByte_data_check s ht
  exact ⟨_, exec_rdb_data ht hc, haxis, hviol, hv2, fun h1 =>
    ⟨(readByte_data_cursor t s ht).2.1 h1, readByte_dataOpen_csN ht (h1.trans_ne (by decide))⟩⟩

/-- Settles O25: the cursor goes from 0 to 1, to 2 and back to 0, and chip-select is raised from 2 only. -/
theorem threeDataReadsCloseTheCycle : Obligations.ThreeDataReadsCloseTheCycle := by
  intro t1 t2 t3 s ht1 ht2 ht3 h0
  have hcursor1 := (readByte_data_cursor t1 s ht1).1 h0
  have hcursor2 := (readByte_data_cursor t2 _ ht2).2.1 hcursor1
  have hcursor3 := (readByte_data_cursor t3 _ ht3).2.2 hcursor2
  have hlegal := readByte_legal t1 s (h0.trans_ne (by decide))
  exact ⟨_, _, _, exec_rdb_data ht1 (h0.trans_ne (by decide)), exec_rdb_data ht2 hlegal,
    exec_rdb_data ht3 (readByte_legal t2 _ hlegal), hcursor1, readByte_dataOpen_csN ht1 (h0.trans_ne (by decide)),
    hcursor2, readByte_dataOpen_csN ht2 (hcursor1.trans_ne (by decide)), hcursor3,
    readByte_dataClosing_csN ht3 hcursor2⟩

/-! ### The transaction engine: the read-cycle state machine (R103)

The table in closed form, column by column: a data read closes at cursor 2 and moves the cursor on, a flag read and a
write raise chip-select, a `SETDIR` stays, and a reset leads to `S0`. -/

theorem CycleState.cursor_legal (k : CycleState) : k.pair.1 ≠ 3 := by cases k <;> decide

theorem CycleState.cursor_eq_zero_iff (k : CycleState) : k.pair.1 = 0 ↔ k = .s0 := by cases k <;> decide

theorem CycleState.pair_after_dataRead (k : CycleState) :
    (k.after .dataRead).pair =
      (if k.pair.1 = 2 then 0 else k.pair.1 + 1, if k.pair.1 = 2 then .high else .low) := by
  cases k <;> rfl

theorem CycleState.pair_after_flagRead (k : CycleState) : (k.after .flagRead).pair = (k.pair.1, .high) := by
  cases k <;> rfl

theorem CycleState.pair_after_write (k : CycleState) : (k.after .write).pair = (k.pair.1, .high) := by
  cases k <;> rfl

theorem CycleState.after_setdir (k : CycleState) : k.after .setdir = k := by cases k <;> rfl

theorem CycleState.after_reset (k : CycleState) : k.after .reset = .s0 := by cases k <;> rfl

/-- A `SETDIR` adds the cause `V4` in the middle of a read cycle only (40_bus_direction.md R77). -/
theorem setDirection_violations_ite (m : Dir) (s : State) :
    (setDirection m s).violations = s.violations ++ (if s.cursor = 0 then [] else [.v4]) := by
  simp

section
variable {k : CycleState} {s : State}

theorem State.inCycle.cursor_eq (h : s.inCycle k) : s.cursor = k.pair.1 := congrArg Prod.fst h

theorem State.inCycle.cursor_legal (h : s.inCycle k) : s.cursor ≠ 3 := h.cursor_eq.trans_ne k.cursor_legal

theorem State.inCycle.cursor_eq_zero_iff (h : s.inCycle k) : s.cursor = 0 ↔ k = .s0 := by
  rw [h.cursor_eq, k.cursor_eq_zero_iff]

theorem readByte_data_inCycle {t : Target} (h : s.inCycle k) (ht : t.cls = .data) :
    (readByte t s).inCycle (k.after .dataRead) := by
  rw [State.inCycle, readByte_data_cursor_eq s ht, readByte_data_csN s ht, k.pair_after_dataRead, h.cursor_eq]

theorem readByte_flags_inCycle {t : Target} (h : s.inCycle k) (ht : t.cls = .flags) :
    (readByte t s).inCycle (k.after .flagRead) := by
  rw [State.inCycle, readByte_flags_cursor s ht, readByte_flags_csN s ht, k.pair_after_flagRead, h.cursor_eq]

theorem writeByte_inCycle (t : Target) (d : Byte) (h : s.inCycle k) : (writeByte t d s).inCycle (k.after .write) := by
  rw [State.inCycle, writeByte_cursor, writeByte_csN, k.pair_after_write, h.cursor_eq]

theorem setDirection_inCycle (m : Dir) (h : s.inCycle k) : (setDirection m s).inCycle (k.after .setdir) := by
  rw [State.inCycle, setDirection_cursor, setDirection_pins, k.after_setdir]
  exact h

end

theorem resetEvent_inCycle (k : CycleState) (s : State) : s.resetEvent.inCycle (k.after .reset) := by
  rw [k.after_reset]
  rfl

/-- Settles O28: one operation at a time; the cursor is 0 in `S0` alone, so there alone nothing is marked. -/
theorem readCycleFollowsItsTable : Obligations.ReadCycleFollowsItsTable := by
  intro k s hk
  have hc := hk.cursor_legal
  have h0 := hk.cursor_eq_zero_iff
  refine ⟨fun t ht => ?_, fun t ht => ?_, fun t d ht => ?_, fun m => ?_, resetEvent_inCycle k s⟩
  · obtain ⟨haxis, -, hv2⟩ := readByte_data_check s ht
    simp only [ne_eq, h0] at haxis hv2
    exact ⟨_, exec_rdb_data ht hc, readByte_data_inCycle hk ht, fun hs0 => haxis.trans (if_pos hs0), hv2⟩
  · obtain ⟨-, -, hv3⟩ := readByte_flags_check s ht
    rw [ite_not] at hv3
    simp only [h0] at hv3
    exact ⟨_, exec_rdb_flags ht hc, readByte_flags_inCycle hk ht, hv3⟩
  · have hv1 := writeByte_violations_ite t d s
    simp only [h0] at hv1
    exact ⟨_, exec_wrb_legal t d s ht hc, writeByte_inCycle t d hk, hv1⟩
  · have hv4 := setDirection_violations_ite m s
    simp only [h0] at hv4
    exact ⟨_, exec_setdir_legal m s hc, setDirection_inCycle m hk, hv4⟩

end Sys2Proof.Machine

namespace Sys2Proof.Machine

/-! ### Host sequences: `RDLATCH` on one axis (43_host_sequences.md R113) -/

/-- The state after the latch command of `RDLATCH a` and `n` reads of its data target. -/
def latchReads (a : Axis) (s : State) : Nat → State
  | 0 => writeByte a.commandTarget 0x11 s
  | n + 1 => readByte a.dataTarget (latchReads a s n)

section
variable (a : Axis) {s : State}

theorem latchReads_legal (h : s.cursor ≠ 3) (n : Nat) : (latchReads a s n).cursor ≠ 3 := by
  induction n with
  | zero => exact (writeByte_cursor _ _ s).trans_ne h
  | succ n ih => exact readByte_legal _ _ ih

theorem exec_latchCommand (h : s.cursor ≠ 3) :
    exec (.wrb a.commandTarget 0x11) s = .next (latchReads a s 0) :=
  exec_wrb_legal _ _ s (commandTarget_writable a) h

theorem exec_latchReads (h : s.cursor ≠ 3) (n : Nat) :
    exec (.rdb a.dataTarget) (latchReads a s n) = .next (latchReads a s (n + 1)) :=
  exec_rdb_data (dataTarget_cls a) (latchReads_legal a h n)

theorem issue_latchCommand (h : s.cursor ≠ 3) : issue (.wrb a.commandTarget 0x11) s = latchReads a s 0 := by
  rw [issue, exec_latchCommand a h]

theorem issue_latchReads (h : s.cursor ≠ 3) (n : Nat) :
    issue (.rdb a.dataTarget) (latchReads a s n) = latchReads a s (n + 1) := by
  rw [issue, exec_latchReads a h n]

/-- On a legal cursor no read is refused, so the value is the join of three bytes. -/
theorem rdLatchAxis_legal (h : s.cursor ≠ 3) :
    ∃ b0 b1 b2, (latchReads a s 1).result = some b0 ∧ (latchReads a s 2).result = some b1 ∧
      (latchReads a s 3).result = some b2 ∧ rdLatchAxis a s = (some (join3 b0 b1 b2), latchReads a s 3) := by
  obtain ⟨b0, h0⟩ : ∃ b, (latchReads a s 1).result = some b := readByte_result _ _
  obtain ⟨b1, h1⟩ : ∃ b, (latchReads a s 2).result = some b := readByte_result _ _
  obtain ⟨b2, h2⟩ : ∃ b, (latchReads a s 3).result = some b := readByte_result _ _
  refine ⟨b0, b1, b2, h0, h1, h2, ?_⟩
  simp only [rdLatchAxis, issue_latchCommand a h, issue_latchReads a h, h0, h1, h2, joinResults]

/-- The reads go on from the byte where the cursor stood, and the third one comes back to it. -/
theorem latchReads_cursor :
    (s.cursor = 0 → (latchReads a s 1).cursor = 1 ∧ (latchReads a s 2).cursor = 2 ∧ (latchReads a s 3).cursor = 0) ∧
      (s.cursor = 1 → (latchReads a s 1).cursor = 2 ∧ (latchReads a s 2).cursor = 0 ∧ (latchReads a s 3).cursor = 1) ∧
      (s.cursor = 2 → (latchReads a s 1).cursor = 0 ∧ (latchReads a s 2).cursor = 1 ∧ (latchReads a s 3).cursor = 2) := by
  refine ⟨fun h => ?_, fun h => ?_, fun h => ?_⟩ <;> simp [latchReads, h]

theorem latchReads_cursor_three (h : s.cursor ≠ 3) : (latchReads a s 3).cursor = s.cursor := by
  obtain ⟨from0, from1, from2⟩ := latchReads_cursor a (s := s)
  by_cases h0 : s.cursor = 0
  · exact (from0 h0).2.2.trans h0.symm
  · obtain h1 | h2 := cursor_midCycle _ h h0
    · exact (from1 h1).2.2.trans h1.symm
    · exact (from2 h2).2.2.trans h2.symm

/-- From an idle controller each read opens a cycle or goes on with one of its own axis, so nothing is marked. -/
theorem latchReads_idle (h : s.cursor = 0) (n : Nat) :
    (latchReads a s n).viol = s.viol ∧ ((latchReads a s n).cursor = 0 ∨ (latchReads a s n).cycleAxis = a) := by
  induction n with
  | zero => simp [latchReads, h]
  | succ n ih =>
    obtain ⟨hviol, hcycle⟩ := ih
    obtain ⟨hquiet, haxis⟩ := readByte_data_quiet a.dataTarget (latchReads a s n) (dataTarget_cls a)
      (by rwa [dataTarget_axis])
    exact ⟨hquiet.trans hviol, .inr (haxis.trans (dataTarget_axis a))⟩

/-- In the middle of a cycle the latch command sets the mark, and the reads keep it. -/
theorem latchReads_marked (h : s.cursor ≠ 0) (n : Nat) : (latchReads a s n).viol = true := by
  induction n with
  | zero => rw [latchReads, writeByte_viol, bne_iff_ne.mpr h, Bool.or_true]
  | succ n ih => exact readByte_data_marked _ _ (dataTarget_cls a) ih

theorem latchReads_refused (n : Nat) : (latchReads a s n).refused = s.refused := by
  induction n with
  | zero => exact writeByte_refused _ _ s
  | succ n ih => exact (readByte_refused _ _).trans ih

/-- From an idle controller the third read closes the cycle. -/
theorem latchReads_three_csN (h : s.cursor = 0) : (latchReads a s 3).pins.csN = .high :=
  readByte_dataClosing_csN (dataTarget_cls a) ((latchReads_cursor a).1 h).2.1

end

/-- Settles O47: each operation of `RDLATCH` on a legal cursor is a `writeByte` or `readByte`, whose cursor and marks have
their laws. -/
theorem rdlatchJoinsItsThreeReads : Obligations.RdlatchJoinsItsThreeReads := by
  refine ⟨⟨rfl, rfl, fun _ => ⟨rfl, rfl⟩⟩, fun a s => ⟨rfl, fun hc => ?_⟩⟩
  obtain ⟨b0, b1, b2, h0, h1, h2, hvalue⟩ := rdLatchAxis_legal a hc
  obtain ⟨from0, from1, from2⟩ := latchReads_cursor a (s := s)
  refine ⟨_, _, _, _, b0, b1, b2, exec_latchCommand a hc, exec_latchReads a hc 0, exec_latchReads a hc 1,
    exec_latchReads a hc 2, h0, h1, h2, writeByte_cursor _ _ s, fun hidle => ?_, from1, from2, hvalue,
    fun hidle => ⟨(from0 hidle).2.2, latchReads_three_csN a hidle, (latchReads_idle a hidle 3).1⟩,
    fun hmid => ⟨(writeByte_violations_ite _ _ s).trans (by rw [if_neg hmid]), latchReads_marked a hmid 3,
      latchReads_cursor_three a hc⟩⟩
  obtain ⟨hcursor1, hcursor2, -⟩ := from0 hidle
  have hcursor0 : (latchReads a s 0).cursor = 0 := (writeByte_cursor _ _ s).trans hidle
  exact ⟨hcursor1, readByte_dataOpen_csN (dataTarget_cls a) (hcursor0.trans_ne (by decide)),
    hcursor2, readByte_dataOpen_csN (dataTarget_cls a) (hcursor1.trans_ne (by decide))⟩

/-! ### Host sequences: `RDLATCH` and `RDFLAGS` (R114, R115) -/

/-- Settles O48: the two arms for `Both` issue nothing; the byte is a draw. -/
theorem readsOfBothAxesTouchNothing : Obligations.ReadsOfBothAxesTouchNothing :=
  fun _ => ⟨rfl, rfl, rfl, _, rfl, rfl, rfl, rfl, rfl, rfl, rfl⟩

theorem rdFlagsAxis_legal (a : Axis) {s : State} (h : s.cursor ≠ 3) :
    rdFlagsAxis a s = ((readByte a.flagTarget s).result, readByte a.flagTarget s) := by
  rw [rdFlagsAxis, issue_rdb _ s (flagTarget_readable a) h]

/-- Settles O49: the one flag read gives a byte, keeps the cursor and is marked as its cycle check says. -/
theorem rdflagsIsOneFlagRead : Obligations.RdflagsIsOneFlagRead := by
  refine ⟨⟨rfl, rfl, fun _ => ⟨rfl, rfl⟩⟩, fun a s hc => ?_⟩
  obtain ⟨b, hresult⟩ := readByte_result a.flagTarget s
  obtain ⟨-, hviol, hv3⟩ := readByte_flags_check s (flagTarget_cls a)
  exact ⟨_, b, exec_rdb_flags (flagTarget_cls a) hc, hresult, by rw [rdFlagsAxis_legal a hc, hresult],
    readByte_flags_cursor s (flagTarget_cls a), hviol, fun hmid => hv3.trans (by rw [if_pos hmid])⟩

/-! ### Host sequences: `WRPRESET` (R116) -/

/-- The writes of `WRPRESET`, X first. -/
def wrPresetSelWrites (v : Nat) : Selector → List (Target × Byte)
  | .x => wrPresetWrites .x v
  | .y => wrPresetWrites .y v
  | .both => wrPresetWrites .x v ++ wrPresetWrites .y v

theorem wrPreset_eq_issueAll (sel : Selector) (v : Nat) (s : State) :
    wrPreset sel v s = issueAll (writes (wrPresetSelWrites v sel)) s := by
  cases sel <;> rfl

theorem wrPresetSelWrites_writable (v : Nat) (sel : Selector) : ∀ p ∈ wrPresetSelWrites v sel, p.1.writable = true := by
  cases sel <;> simp [wrPresetSelWrites, wrPresetWrites]

theorem wrPresetSelWrites_ne_nil (v : Nat) (sel : Selector) : wrPresetSelWrites v sel ≠ [] := by
  cases sel <;> exact List.cons_ne_nil _ _

theorem wrPreset_params_trace (sel : Selector) (v : Nat) (s : State) (h : s.cursor ≠ 3) :
    (wrPreset sel v s).params = s.params ∧
      (wrPreset sel v s).trace =
        s.trace ++ (wrPresetSelWrites v sel).flatMap fun p => writeTrace s.params p.1 p.2 := by
  rw [wrPreset_eq_issueAll]
  exact issueAll_writes_trace _ s h (wrPresetSelWrites_writable v sel)

/-- Settles O50: `WRPRESET` is a run of two or four writes, and its trace is theirs in order. -/
theorem wrpresetSendsOneByteAfterEachReset : Obligations.WrpresetSendsOneByteAfterEachReset := by
  refine fun v => ⟨rfl, rfl, rfl, fun _ _ => rfl, fun sel s hc => ?_, fun s hc => ?_⟩
  · obtain ⟨hcursor, hviol, hrefused, -⟩ :=
      issueAll_writes _ s hc (wrPresetSelWrites_writable v sel) (wrPresetSelWrites_ne_nil v sel)
    rw [← wrPreset_eq_issueAll] at hcursor hviol hrefused
    exact ⟨hcursor, hviol, hrefused, (wrPreset_params_trace sel v s hc).1⟩
  · have htrace (sel : Selector) := (wrPreset_params_trace sel v s hc).2
    simp [htrace, wrPresetSelWrites, wrPresetWrites, Axis.commandTarget, Axis.dataTarget]

/-! ### Host sequences: `SETCNT` (R118 to R120) -/

/-- The state after the five writes of the load half of `SETCNT a, v`. -/
def setCntLoad (a : Axis) (v : U24) (s : State) : State := issueAll (writes (setCntWrites a v)) s

theorem setCntWrites_writable (a : Axis) (v : U24) : ∀ p ∈ setCntWrites a v, p.1.writable = true := by
  simp [setCntWrites]

theorem setCntLoad_idle (a : Axis) (v : U24) {s : State} (h : s.cursor = 0) :
    (setCntLoad a v s).cursor = 0 ∧ (setCntLoad a v s).viol = s.viol ∧ (setCntLoad a v s).refused = s.refused ∧
      (setCntLoad a v s).pins.booted := by
  obtain ⟨hcursor, hviol, hrefused, -, hbooted⟩ :=
    issueAll_writes _ s (h.trans_ne (by decide)) (setCntWrites_writable a v) (List.cons_ne_nil _ _)
  exact ⟨hcursor.trans h, hviol.trans (by simp [h]), hrefused, hbooted⟩

theorem setCntAxis_eq (a : Axis) (v : U24) (s : State) :
    setCntAxis a v s = ((rdLatchAxis a (setCntLoad a v s)).1.map (decide <| · = v), (rdLatchAxis a (setCntLoad a v s)).2) :=
  rfl

/-- From an idle controller `SETCNT a, v` compares the join of the three bytes read after its load with `v`. -/
theorem setCntAxis_idle (a : Axis) (v : U24) {s : State} (h : s.cursor = 0) :
    ∃ b0 b1 b2, (latchReads a (setCntLoad a v s) 1).result = some b0 ∧
      (latchReads a (setCntLoad a v s) 2).result = some b1 ∧ (latchReads a (setCntLoad a v s) 3).result = some b2 ∧
      setCntAxis a v s = (some (decide (join3 b0 b1 b2 = v)), latchReads a (setCntLoad a v s) 3) := by
  obtain ⟨hcursor, -⟩ := setCntLoad_idle a v h
  obtain ⟨b0, b1, b2, h0, h1, h2, hvalue⟩ := rdLatchAxis_legal a (hcursor.trans_ne (by decide))
  exact ⟨b0, b1, b2, h0, h1, h2, by rw [setCntAxis_eq, hvalue]; rfl⟩

/-- What R120 says of a run of `SETCNT` from `s`: it returned a boolean, and it left the controller idle and the marks as
they were. -/
def ReturnsIdle (s : State) (p : Option Bool × State) : Prop :=
  ∃ r u, p = (some r, u) ∧ u.cursor = 0 ∧ u.pins.csN = .high ∧ u.viol = s.viol ∧ u.refused = s.refused

theorem setCntAxis_returnsIdle (a : Axis) (v : U24) {s : State} (h : s.cursor = 0) :
    ReturnsIdle s (setCntAxis a v s) := by
  obtain ⟨hcursor, hviol, hrefused, -⟩ := setCntLoad_idle a v h
  obtain ⟨b0, b1, b2, -, -, -, hvalue⟩ := setCntAxis_idle a v h
  exact ⟨_, _, hvalue, ((latchReads_cursor a).1 hcursor).2.2, latchReads_three_csN a hcursor,
    (latchReads_idle a hcursor 3).1.trans hviol, (latchReads_refused a 3).trans hrefused⟩

theorem setCntFits_both {v : U24} {s sx sy : State} {rx ry : Bool} (hx : setCntAxis .x v s = (some rx, sx))
    (hy : setCntAxis .y v sx = (some ry, sy)) : setCntFits .both v s = (some (rx && ry), sy) := by
  simp only [setCntFits, hx, hy, andResults]

theorem setCntFits_returnsIdle (sel : Selector) (v : U24) {s : State} (h : s.cursor = 0) :
    ReturnsIdle s (setCntFits sel v s) := by
  cases sel with
  | x => exact setCntAxis_returnsIdle .x v h
  | y => exact setCntAxis_returnsIdle .y v h
  | both =>
    obtain ⟨rx, sx, hx, hcursorX, -, hviolX, hrefusedX⟩ := setCntAxis_returnsIdle .x v h
    obtain ⟨ry, sy, hy, hcursorY, hcsN, hviolY, hrefusedY⟩ := setCntAxis_returnsIdle .y v hcursorX
    exact ⟨_, _, setCntFits_both hx hy, hcursorY, hcsN, hviolY.trans hviolX, hrefusedY.trans hrefusedX⟩

/-- Settles O51: the load keeps an idle controller idle, and the three reads of the latch close the cycle they open. -/
theorem setcntLeavesTheControllerIdle : Obligations.SetcntLeavesTheControllerIdle := by
  refine ⟨fun sel v s hv h0 => ?_, fun a w s h0 => ?_, fun v s hv h0 => ?_⟩
  · obtain ⟨r, u, hvalue, hidle⟩ := setCntFits_returnsIdle sel (BitVec.ofNat 24 v) h0
    rw [setCnt_fits sel v s hv, hvalue]
    exact ⟨r, rfl, hidle⟩
  · have hc : (setCntLoad a w s).cursor ≠ 3 := (setCntLoad_idle a w h0).1.trans_ne (by decide)
    obtain ⟨b0, b1, b2, hb0, hb1, hb2, hvalue⟩ := setCntAxis_idle a w h0
    exact ⟨_, _, _, _, b0, b1, b2, (issue_latchCommand a hc).symm, exec_latchReads a hc 0, exec_latchReads a hc 1,
      exec_latchReads a hc 2, hb0, hb1, hb2, hvalue⟩
  · obtain ⟨rx, sx, hx, hcursorX, -⟩ := setCntAxis_returnsIdle .x (BitVec.ofNat 24 v) h0
    obtain ⟨ry, sy, hy, -⟩ := setCntAxis_returnsIdle .y (BitVec.ofNat 24 v) hcursorX
    have hfits (sel : Selector) (s : State) := setCnt_fits sel v s hv
    exact ⟨hfits .x s, hfits .y s, rx, ry, sx, sy, (hfits .x s).trans hx, (hfits .y sx).trans hy,
      (hfits .both s).trans (setCntFits_both hx hy)⟩

/-- Settles O52: a wide value takes the refusing branch of both definitions. -/
theorem setcntRefusesAWideValue : Obligations.SetcntRefusesAWideValue :=
  fun sel v s hv => ⟨if_neg (Nat.not_lt.mpr hv), setCnt_wide sel v s (Nat.not_lt.mpr hv)⟩

/-! ### Host sequences: `SETCNT` under the reference chip (R118, 48_reference_chip.md R127 to R131) -/

/-- The reference chip after a `WRB` of a byte to a target. -/
def RefChip.write (c : RefChip) (p : Target × Byte) : RefChip :=
  if p.1.cls = .data then c.writeData p.1.axis p.2 else c.writeCommand p.1.axis p.2

/-- A run of writes that starts with both strobes high is that run of writes to the chip. -/
theorem issueAll_writes_chip (l : List (Target × Byte)) {s : State} {c : RefChip} (h : s.cursor ≠ 3)
    (hl : ∀ p ∈ l, p.1.writable = true) (hc : s.chip = some c) (hw : s.pins.wrN = .high) (hr : s.pins.rdN = .high) :
    (issueAll (writes l) s).chip = some (l.foldl RefChip.write c) := by
  induction l generalizing s c with
  | nil => exact hc
  | cons p l ih =>
    obtain ⟨hp, hl⟩ := List.forall_mem_cons.mp hl
    have hstep : issueAll (writes (p :: l)) s = issueAll (writes l) (writeByte p.1 p.2 s) :=
      congrArg (issueAll (writes l)) (issue_wrb p.1 p.2 s hp h)
    rw [hstep, List.foldl_cons]
    exact ih (by simpa using h) hl (writeByte_chip_write p.1 p.2 s c hc hw hr) (by simp) (by simp)

/-- An axis with `v` in its preset register, its counter and its latch, and its byte pointer at `k`. -/
def ChipAxis.holding (v : U24) (k : Fin 4) (x : ChipAxis) : ChipAxis :=
  { x with pr := split3 v, cntr := v, ol := v, bp := k }

theorem RefChip.onAxis_onAxis (a : Axis) (f g : ChipAxis → ChipAxis) (c : RefChip) :
    (c.onAxis a f).onAxis a g = c.onAxis a (g ∘ f) := by
  cases a <;> rfl

theorem RefChip.axis_onAxis_same (a : Axis) (f : ChipAxis → ChipAxis) (c : RefChip) :
    (c.onAxis a f).axis a = f (c.axis a) := by
  rw [RefChip.axis_onAxis, if_pos rfl]

theorem RefChip.write_command (a : Axis) (b : Byte) (c : RefChip) (h : b.getLsbD 7 = false) :
    c.write (a.commandTarget, b) = c.onAxis a (·.command b c.flagsAfterReset) := by
  simp only [RefChip.write, commandTarget_cls, commandTarget_axis, RefChip.writeCommand, h, reduceCtorEq, if_false,
    Bool.false_eq_true]

/-! What the command bytes of `SETCNT` do (R131): `RBP`, `XFER_PR_TO_CNTR`, and `RBP` with `XFER_CNTR_TO_OL`. -/

theorem RefChip.write_resetPointer (a : Axis) (c : RefChip) :
    c.write (a.commandTarget, 0x01) = c.onAxis a ({ · with bp := 0 }) :=
  RefChip.write_command a 0x01 c rfl

theorem RefChip.write_toCounter (a : Axis) (c : RefChip) :
    c.write (a.commandTarget, 0x08) = c.onAxis a fun x => { x with cntr := join3 x.pr.b0 x.pr.b1 x.pr.b2 } :=
  RefChip.write_command a 0x08 c rfl

theorem RefChip.write_toLatch (a : Axis) (c : RefChip) :
    c.write (a.commandTarget, 0x11) = c.onAxis a fun x => { x with bp := 0, ol := x.cntr } :=
  RefChip.write_command a 0x11 c rfl

/-- A data write to an axis whose byte pointer has not passed the last byte is no fault. -/
theorem RefChip.write_data_onAxis (a : Axis) (b : Byte) (c : RefChip) {f : ChipAxis → ChipAxis}
    (h : (f (c.axis a)).bp ≠ 3) : (c.onAxis a f).write (a.dataTarget, b) = c.onAxis a (ChipAxis.writeData b ∘ f) := by
  rw [← RefChip.onAxis_onAxis]
  simp [RefChip.write, RefChip.writeData, RefChip.axis_onAxis_same, h]

/-- The byte pointer is at 0, 1 and 2 at the data writes of `SETCNT`, so they fill the preset register. -/
theorem foldl_write_setCnt (a : Axis) (v : U24) (c : RefChip) :
    (setCntWrites a v).foldl RefChip.write c = c.onAxis a ({ · with pr := split3 v, cntr := v, bp := 3 }) := by
  have h0 : (0 : Fin 4) ≠ 3 := by decide
  have h1 : (1 : Fin 4) ≠ 3 := by decide
  have h2 : (2 : Fin 4) ≠ 3 := by decide
  simp only [setCntWrites, List.foldl_cons, List.foldl_nil]
  rw [RefChip.write_resetPointer, RefChip.write_data_onAxis a _ c h0, RefChip.write_data_onAxis a _ c h1,
    RefChip.write_data_onAxis a _ c h2, RefChip.write_toCounter, RefChip.onAxis_onAxis]
  refine congrArg (c.onAxis a) (funext fun x => ?_)
  show { x with pr := split3 v, cntr := join3 (split3 v).b0 (split3 v).b1 (split3 v).b2, bp := 3 } = _
  rw [join3_split3]

/-- The latch command of `SETCNT` copies the counter that its five writes loaded. -/
theorem latchReads_setCnt_chip (a : Axis) (v : U24) {s : State} {c : RefChip} (h : s.cursor = 0) (hc : s.chip = some c)
    (hw : s.pins.wrN = .high) (hr : s.pins.rdN = .high) :
    (latchReads a (setCntLoad a v s) 0).chip = some (c.onAxis a (·.holding v 0)) := by
  obtain ⟨-, -, -, -, hw', hr'⟩ := setCntLoad_idle a v h
  have hload : (setCntLoad a v s).chip = some ((setCntWrites a v).foldl RefChip.write c) :=
    issueAll_writes_chip _ (h.trans_ne (by decide)) (setCntWrites_writable a v) hc hw hr
  have hlatch : (latchReads a (setCntLoad a v s) 0).chip =
      some (((setCntWrites a v).foldl RefChip.write c).write (a.commandTarget, 0x11)) :=
    writeByte_chip_write a.commandTarget 0x11 _ _ hload hw' hr'
  rw [hlatch, foldl_write_setCnt, RefChip.write_toLatch, RefChip.onAxis_onAxis]
  rfl

theorem latchReads_strobesHigh (a : Axis) (s : State) (n : Nat) :
    (latchReads a s n).pins.wrN = .high ∧ (latchReads a s n).pins.rdN = .high := by
  induction n with
  | zero => simp [latchReads]
  | succ n ih => simp [latchReads, ih]

/-- A read of an axis that holds `v` gives the byte of `v` at the byte pointer and moves the pointer on. -/
theorem latchReads_holding (a : Axis) {v : U24} {s : State} {c : RefChip} {n : Nat} {k : Fin 4} {b : Byte}
    (hc : (latchReads a s n).chip = some (c.onAxis a (·.holding v k))) (hb : byteOf v k = some b) :
    (latchReads a s (n + 1)).result = some b ∧
      (latchReads a s (n + 1)).chip = some (c.onAxis a (·.holding v (nextByte k))) := by
  obtain ⟨hw, hr⟩ := latchReads_strobesHigh a s n
  have hread := readByte_chip_data a.dataTarget (latchReads a s n) _ (dataTarget_cls a) hc hw hr b
  simp only [dataTarget_axis, RefChip.axis_onAxis_same, RefChip.onAxis_onAxis] at hread
  exact hread hb

/-- Settles O53: the six writes leave an axis that holds the value, and the three reads give its three bytes. -/
theorem setcntReadsBackUnderTheReferenceChip : Obligations.SetcntReadsBackUnderTheReferenceChip := by
  intro a v s c h0 hw hr hc
  have hchip0 := latchReads_setCnt_chip a v h0 hc hw hr
  obtain ⟨hresult1, hchip1⟩ := latchReads_holding a hchip0 (b := (split3 v).b0) rfl
  obtain ⟨hresult2, hchip2⟩ := latchReads_holding a hchip1 (b := (split3 v).b1) rfl
  obtain ⟨hresult3, hchip3⟩ := latchReads_holding a hchip2 (b := (split3 v).b2) rfl
  obtain ⟨b0, b1, b2, h1, h2, h3, hvalue⟩ := setCntAxis_idle a v h0
  obtain rfl := Option.some.inj (hresult1.symm.trans h1)
  obtain rfl := Option.some.inj (hresult2.symm.trans h2)
  obtain rfl := Option.some.inj (hresult3.symm.trans h3)
  rw [join3_split3, decide_eq_true rfl] at hvalue
  obtain ⟨r, u, hvalue', -, -, hviol, hrefused⟩ := setCntAxis_returnsIdle a v h0
  obtain ⟨-, rfl⟩ := Prod.mk.inj (hvalue'.symm.trans hvalue)
  exact ⟨_, _, hvalue, hchip3, by rw [RefChip.axis_onAxis_same]; rfl, by rw [RefChip.axis_onAxis_same]; rfl,
    RefChip.envFault_onAxis a _ c, hviol, hrefused⟩

/-! ### Host sequences: `INIT` (R121, R122) -/

theorem cmdSel_axisCommand_idr : ∀ f : BitVec 5, cmdSel (axisCommand 0x60 f) ≠ 0b10 := by decide

theorem cmdSel_axisCommand_cmr : ∀ f : BitVec 5, cmdSel (axisCommand 0x20 f) ≠ 0b10 := by decide

/-- The command bytes of an axis program are three RLD commands, the IDR and the CMR command. -/
theorem initAxisWrites_noIor (a : Axis) (c : AxisProgram) :
    ∀ p ∈ initAxisWrites a c, p.1.cls = .command → cmdSel p.2 ≠ 0b10 := by
  have hcommands : cmdSel 0x05 ≠ 0b10 ∧ cmdSel 0x18 ≠ 0b10 ∧ cmdSel 0x03 ≠ 0b10 ∧
      cmdSel (axisCommand 0x60 c.idrFlags) ≠ 0b10 ∧ cmdSel (axisCommand 0x20 c.cmrFlags) ≠ 0b10 :=
    ⟨by decide, by decide, by decide, cmdSel_axisCommand_idr _, cmdSel_axisCommand_cmr _⟩
  simpa [initAxisWrites] using hcommands

theorem initAxisWrites_writable (a : Axis) (c : AxisProgram) : ∀ p ∈ initAxisWrites a c, p.1.writable = true := by
  simp [initAxisWrites]

theorem initWrites_writable (disable enable : BitVec 5) (x y : AxisProgram) :
    ∀ p ∈ initWrites disable enable x y, p.1.writable = true := by
  simp only [initWrites, List.forall_mem_append]
  refine ⟨⟨⟨?_, initAxisWrites_writable .x x⟩, initAxisWrites_writable .y y⟩, ?_⟩ <;> simp [Target.writable]

theorem initSession_eq (cfgX cfgY : EncoderConfig) (s : State) :
    initSession cfgX cfgY s =
      (true, issueAll (writes (initWrites Config.iorDisable Config.iorEnable (axisProgram cfgX) (axisProgram cfgY))) s) :=
  rfl

/-- Settles O54: `INIT` is a run of 22 writes, of which only the first two and the last two have the selector of IOR. -/
theorem initDisablesFirstAndEnablesLast : Obligations.InitDisablesFirstAndEnablesLast := by
  refine fun cfgX cfgY => ⟨initAxisWrites .x (axisProgram cfgX) ++ initAxisWrites .y (axisProgram cfgY), rfl, rfl, ?_,
    fun s hc => ?_⟩
  · exact fun p hp => (List.mem_append.mp hp).elim (initAxisWrites_noIor _ _ p) (initAxisWrites_noIor _ _ p)
  · obtain ⟨hcursor, hviol, -, hdir, hbooted⟩ :=
      issueAll_writes _ s hc (initWrites_writable Config.iorDisable Config.iorEnable (axisProgram cfgX) (axisProgram cfgY))
        (List.cons_ne_nil _ _)
    simp only [initSession_eq, true_and]
    exact ⟨hcursor, hdir, hbooted, hviol⟩

end Sys2Proof.Machine

namespace Sys2Proof.Machine

/-! ### The reference chip: one axis (48_reference_chip.md R128 to R132) -/

theorem nextByte_of_ne_three : ∀ k : Fin 4, k ≠ 3 → nextByte k = k + 1 := by decide

/-- A byte pointer that has not passed the last byte is at a byte. -/
theorem byteOf_isSome_of_ne_three (v : U24) {k : Fin 4} (h : k ≠ 3) : ∃ b, byteOf v k = some b := by
  fin_cases k
  · exact ⟨_, rfl⟩
  · exact ⟨_, rfl⟩
  · exact ⟨_, rfl⟩
  · exact absurd rfl h

theorem ChipAxis.writeData_of_ne_three (d : Byte) {x : ChipAxis} (h : x.bp ≠ 3) :
    x.writeData d = { x with pr := x.pr.set x.bp d, bp := x.bp + 1 } := by
  rw [ChipAxis.writeData, nextByte_of_ne_three _ h]

/-- A data write past the last byte leaves the axis as it is (R128). -/
theorem ChipAxis.writeData_past (d : Byte) {x : ChipAxis} (h : x.bp = 3) : x.writeData d = x := by
  cases x
  cases h
  rfl

theorem ChipAxis.command_reload {b : Byte} (h : cmdSel b = 0b00) (fl : Byte) (x : ChipAxis) :
    x.command b fl = x.reload (cmdF b) fl := by
  rw [ChipAxis.command, ← cmdSel, h]
  rfl

/-- A command byte for another register than `RLD` is stored in the register its selector names (R132). -/
theorem ChipAxis.command_store {b : Byte} (h : cmdSel b ≠ 0b00) (fl : Byte) (x : ChipAxis) :
    x.command b fl =
      if cmdSel b = 0b01 then { x with cmr := b }
      else if cmdSel b = 0b10 then { x with ior := b }
      else { x with idr := b } := by
  rw [ChipAxis.command, ← cmdSel]
  obtain hk | hk | hk | hk :=
    (show ∀ k : BitVec 2, k = 0b00 ∨ k = 0b01 ∨ k = 0b10 ∨ k = 0b11 by decide) (cmdSel b)
  · exact absurd hk h
  all_goals rw [hk]; rfl

/-! ### The reference chip: the two axes (R126, R130) -/

/-- A change that leaves its axis as it is leaves the chip as it is. -/
theorem RefChip.onAxis_fixed {a : Axis} {f : ChipAxis → ChipAxis} {c : RefChip} (h : f (c.axis a) = c.axis a) :
    c.onAxis a f = c := by
  cases a with
  | x => exact congrArg (fun x => { c with x := x }) h
  | y => exact congrArg (fun y => { c with y := y }) h

theorem RefChip.axis_onAxis_other {a b : Axis} (h : b ≠ a) (f : ChipAxis → ChipAxis) (c : RefChip) :
    (c.onAxis a f).axis b = c.axis b := by
  rw [RefChip.axis_onAxis, if_neg h]

/-- The end of a data read moves the byte pointer of its axis; the latch, the counter and the other axis stay (R129). -/
theorem RefChip.axis_endRead (a : Axis) (c : RefChip) :
    ((c.onAxis a (·.endRead)).axis a).bp = nextByte (c.axis a).bp ∧
      ((c.onAxis a (·.endRead)).axis a).ol = (c.axis a).ol ∧
      ((c.onAxis a (·.endRead)).axis a).cntr = (c.axis a).cntr ∧
      ∀ b, b ≠ a → (c.onAxis a (·.endRead)).axis b = c.axis b := by
  rw [RefChip.axis_onAxis_same]
  exact ⟨rfl, rfl, rfl, fun b hb => RefChip.axis_onAxis_other hb _ c⟩

theorem RefChip.writeData_of_ne_three (d : Byte) {a : Axis} {c : RefChip} (h : (c.axis a).bp ≠ 3) :
    c.writeData a d = c.onAxis a (·.writeData d) := by
  rw [RefChip.writeData, decide_eq_false h, RefChip.faultIf_false]

theorem RefChip.writeData_past (d : Byte) {a : Axis} {c : RefChip} (h : (c.axis a).bp = 3) :
    c.writeData a d = { c with envFault := true } := by
  rw [RefChip.writeData, decide_eq_true h, RefChip.onAxis_fixed (ChipAxis.writeData_past d h), RefChip.faultIf_true]

/-- A command byte acts on the axis of its target, and on the other one too when its bit `A` is 1 (R130). -/
theorem RefChip.axis_writeCommand (a ax : Axis) (b : Byte) (c : RefChip) :
    (c.writeCommand a b).axis ax =
      if b.getLsbD 7 = true ∨ ax = a then (c.axis ax).command b c.flagsAfterReset else c.axis ax := by
  unfold RefChip.writeCommand
  cases b.getLsbD 7 with
  | true => cases ax <;> rfl
  | false => simp [RefChip.axis_onAxis]

@[simp] theorem RefChip.envFault_writeCommand (a : Axis) (b : Byte) (c : RefChip) :
    (c.writeCommand a b).envFault = c.envFault := by
  unfold RefChip.writeCommand
  split <;> simp

@[simp] theorem RefChip.flagsAfterReset_writeCommand (a : Axis) (b : Byte) (c : RefChip) :
    (c.writeCommand a b).flagsAfterReset = c.flagsAfterReset := by
  unfold RefChip.writeCommand
  split <;> simp

/-- Bit 7 of a command byte is its bit `A`. -/
theorem commandByte_getLsbD_seven (A : BitVec 1) (r : CommandReg) (f : BitVec 5) :
    (commandByte A r f).getLsbD 7 = true ↔ A = 1 := by
  cases r <;> revert A f <;> decide

/-! ### The reference chip under one instruction (R127) -/

section
variable (a : Axis) {s : State} {c : RefChip} (hcursor : s.cursor ≠ 3) (hw : s.pins.wrN = .high)
  (hr : s.pins.rdN = .high) (hc : s.chip = some c)
include hcursor hw hr hc

theorem exec_wrb_dataTarget_chip (d : Byte) :
    ∃ u, exec (.wrb a.dataTarget d) s = .next u ∧ u.chip = some (c.writeData a d) :=
  ⟨_, exec_wrb_legal _ d s (dataTarget_writable a) hcursor, by simp [writeByte_chip_write _ d s c hc hw hr]⟩

theorem exec_wrb_commandTarget_chip (b : Byte) :
    ∃ u, exec (.wrb a.commandTarget b) s = .next u ∧ u.chip = some (c.writeCommand a b) :=
  ⟨_, exec_wrb_legal _ b s (commandTarget_writable a) hcursor, by simp [writeByte_chip_write _ b s c hc hw hr]⟩

/-- A data read whose byte pointer is at byte `b` of the latch gives `b` and moves the pointer on (R129). -/
theorem exec_rdb_dataTarget_chip {b : Byte} (hb : byteOf (c.axis a).ol (c.axis a).bp = some b) :
    ∃ u, exec (.rdb a.dataTarget) s = .next u ∧ u.result = some b ∧ u.chip = some (c.onAxis a (·.endRead)) := by
  have hread := readByte_chip_data a.dataTarget s c (dataTarget_cls a) hc hw hr b
  simp only [dataTarget_axis] at hread
  exact ⟨_, exec_rdb_data (dataTarget_cls a) hcursor, hread hb⟩

/-- A data read past the last byte of the latch is a fault of the environment (R129). -/
theorem exec_rdb_dataTarget_chip_past (hb : byteOf (c.axis a).ol (c.axis a).bp = none) :
    ∃ u, exec (.rdb a.dataTarget) s = .next u ∧ u.chip = some ((c.faultIf true).onAxis a (·.endRead)) := by
  have hread := readByte_chip_past a.dataTarget s c (dataTarget_cls a) hc hw hr
  simp only [dataTarget_axis] at hread
  exact ⟨_, exec_rdb_data (dataTarget_cls a) hcursor, (hread hb).2⟩

end

/-- Settles O55: the chip sees one data write, which is a fault of the environment only past the last byte. -/
theorem chipStoresADataWriteAtItsBytePointer : Obligations.ChipStoresADataWriteAtItsBytePointer := by
  intro a d s c hcursor hw hr hc
  obtain ⟨u, hexec, hchip⟩ := exec_wrb_dataTarget_chip a hcursor hw hr hc d
  refine ⟨u, _, hexec, hchip, RefChip.writeData_past d, fun hbp => ?_⟩
  rw [RefChip.writeData_of_ne_three d hbp]
  exact ⟨RefChip.envFault_onAxis _ _ c, RefChip.flagsAfterReset_onAxis _ _ c,
    (RefChip.axis_onAxis_same _ _ c).trans (ChipAxis.writeData_of_ne_three d hbp),
    fun b hb => RefChip.axis_onAxis_other hb _ c⟩

/-- Settles O56: a read at a byte of the latch answers it, and a read past the last byte sets `ENVFAULT`; either ends by
moving the byte pointer of its axis. -/
theorem chipAnswersADataReadFromItsLatch : Obligations.ChipAnswersADataReadFromItsLatch := by
  intro a s c hcursor hw hr hc
  by_cases hbp : (c.axis a).bp = 3
  · obtain ⟨u, hexec, hchip⟩ := exec_rdb_dataTarget_chip_past a hcursor hw hr hc (by rw [hbp]; rfl)
    obtain ⟨hpointer, hframe⟩ := RefChip.axis_endRead a (c.faultIf true)
    simp only [RefChip.axis_faultIf, hbp] at hpointer hframe
    refine ⟨u, _, hexec, hchip, by simp [hbp], by simp [hbp], by simp [hbp], (absurd hbp ·),
      fun _ => ⟨hpointer, ?_⟩, hframe⟩
    rw [RefChip.envFault_onAxis, RefChip.envFault_faultIf, Bool.or_true]
  · obtain ⟨b, hb⟩ := byteOf_isSome_of_ne_three (c.axis a).ol hbp
    obtain ⟨u, hexec, hresult, hchip⟩ := exec_rdb_dataTarget_chip a hcursor hw hr hc hb
    obtain ⟨hpointer, hframe⟩ := RefChip.axis_endRead a c
    have hbyte {k : Fin 4} (hk : (c.axis a).bp = k) : u.result = byteOf (c.axis a).ol k := by rw [hresult, ← hb, hk]
    exact ⟨u, _, hexec, hchip, hbyte, hbyte, hbyte,
      fun _ => ⟨hpointer.trans (nextByte_of_ne_three _ hbp), RefChip.envFault_onAxis _ _ c⟩, (absurd · hbp), hframe⟩

/-- Settles O57: the byte is a reload command by its selector, with its `F` and its `A`, and `ChipAxis.reload_eq` gives each
field of an axis it acts on. -/
theorem chipAppliesReloadCommandsInOrder : Obligations.ChipAppliesReloadCommandsInOrder := by
  intro a A f s c hcursor hw hr hc
  obtain ⟨u, hexec, hchip⟩ := exec_wrb_commandTarget_chip a hcursor hw hr hc (commandByte A .rld f)
  refine ⟨u, _, hexec, hchip, RefChip.envFault_writeCommand .., RefChip.flagsAfterReset_writeCommand .., fun ax => ?_⟩
  obtain ⟨-, hsel, hf⟩ := fields_of_commandByte A .rld f
  simp only [RefChip.axis_writeCommand, commandByte_getLsbD_seven]
  rw [ChipAxis.command_reload hsel, hf, ChipAxis.reload_eq]

/-- Settles O58: a command write is the same on every axis it acts on, and this one stores its byte there. -/
theorem chipStoresModeCommandsWhole : Obligations.ChipStoresModeCommandsWhole := by
  intro a b s c hcursor hw hr hc hsel
  obtain ⟨u, hexec, hchip⟩ := exec_wrb_commandTarget_chip a hcursor hw hr hc b
  refine ⟨u, _, hexec, hchip, RefChip.envFault_writeCommand .., RefChip.flagsAfterReset_writeCommand .., fun ax => ?_⟩
  rw [RefChip.axis_writeCommand, ChipAxis.command_store hsel]

/-- Settles O59: the chip answers a flag read and its end moves nothing. -/
theorem chipAnswersAFlagReadWithItsFlags : Obligations.ChipAnswersAFlagReadWithItsFlags := by
  intro a s c hcursor hw hr hc
  have hread := readByte_chip_flags a.flagTarget s c (flagTarget_cls a) hc hw hr
  rw [flagTarget_axis] at hread
  exact ⟨_, exec_rdb_flags (flagTarget_cls a) hcursor, hread⟩

end Sys2Proof.Machine

namespace Sys2Proof.Machine

/-! ### Exceptions: one step (60_exceptions.md R137, R140) -/

/-- Settles O36: an instruction answers a next state, and so does an input that needs none. -/
theorem everyStepAnswersANextState : Obligations.EveryStepAnswersANextState := by
  intro s
  unfold step
  cases take s with
  | run i u => exact exec_next i u
  | done u => exact ⟨u, rfl⟩

theorem serve_word_ok {c : CodeWord} {i : Instr} (h : decode c = .ok i) (s : State) : serve (.word c) s = .run i s := by
  simp only [serve, h]

theorem serve_word_error {c : CodeWord} {r : RefusalReason} (h : decode c = .error r) (s : State) :
    serve (.word c) s = .done (s.raiseRefused r) := by
  simp only [serve, h]

/-- On a legal cursor, an input that asks for an instruction runs it. -/
theorem step_run {s u : State} {inp : HostInput} {rest : List HostInput} {i : Instr} (h : s.pending = inp :: rest)
    (hc : s.cursor ≠ 3) (hi : serve inp { s with pending := rest } = .run i u) : step s = exec i u := by
  rw [step_cons h hc, hi]

/-- Settles O29: a decoded word and a call each ask for an instruction. -/
theorem stepRunsTheDecodedInstruction : Obligations.StepRunsTheDecodedInstruction :=
  ⟨fun _ _ _ _ h hd hc => step_run h hc (serve_word_ok hd _), fun _ _ _ _ h hc => step_run h hc rfl⟩

/-- Settles O30: serving a word the decoder refuses is its refusal. -/
theorem stepRefusesAnUndecodableWord : Obligations.StepRefusesAnUndecodableWord :=
  fun _ _ _ _ h hd hc => step_served h hc (serve_word_error hd _)

/-! ### Exceptions: the end of a run (R144) -/

@[simp] theorem State.endRun_violations (s : State) :
    s.endRun.violations = s.violations ++ (if s.cursor = 0 then [] else [.v5]) := by
  simp [State.endRun]

@[simp] theorem State.endRun_refused (s : State) : s.endRun.refused = s.refused := by simp [State.endRun]

@[simp] theorem State.endRun_refusals (s : State) : s.endRun.refusals = s.refusals := by simp [State.endRun]

@[simp] theorem State.endRun_chip (s : State) : s.endRun.chip = s.chip := by simp [State.endRun]

/-- The four conditions of a clean final state. -/
theorem State.clean_iff (s : State) :
    s.clean = true ↔
      s.cursor = 0 ∧ s.viol = false ∧ s.refused = false ∧ ∀ c, s.chip = some c → c.envFault = false := by
  cases hc : s.chip <;> simp [State.clean, hc, and_assoc]

/-- Settles O35: the fields of `State.endRun`, and `State.clean_iff` of the final state. -/
theorem runEndingMidCycleIsMarked : Obligations.RunEndingMidCycleIsMarked := by
  intro rest s h hc
  exact ⟨_, step_served h hc rfl, rfl, State.endRun_pins _, State.endRun_cursor _, State.endRun_trace _,
    State.endRun_refused _, State.endRun_chip _, State.endRun_viol _, State.endRun_violations _, State.clean_iff _⟩

/-! ### Exceptions: what can set `REFUSED` (R139 to R141) -/

/-- An instruction is refused, or it leaves `REFUSED` and its reasons alone. -/
theorem exec_refusals {i : Instr} {s t : State} (h : exec i s = .next t) :
    (∃ r, t = s.raiseRefused r) ∨ t.refused = s.refused ∧ t.refusals = s.refusals := by
  obtain ⟨r, rfl⟩ | ⟨-, m, -, rfl⟩ | ⟨-, u, d, -, -, rfl⟩ | ⟨-, u, -, -, rfl⟩ | ⟨b, rfl⟩ := exec_cases h
  · exact .inl ⟨r, rfl⟩
  · exact .inr ⟨setDirection_refused m s, setDirection_refusals m s⟩
  · exact .inr ⟨writeByte_refused u d s, writeByte_refusals u d s⟩
  · exact .inr ⟨readByte_refused u s, readByte_refusals u s⟩
  · exact .inr ⟨rfl, rfl⟩

/-- A step takes its input and is refused, or it leaves `REFUSED` and its reasons alone. -/
theorem step_refusals {s t : State} (h : step s = .next t) :
    (∃ rest r, t = { s with pending := rest }.raiseRefused r) ∨ t.refused = s.refused ∧ t.refusals = s.refusals := by
  obtain ⟨-, rfl⟩ | ⟨inp, rest, -, hserve⟩ := step_cases h
  · exact .inr ⟨rfl, rfl⟩
  · obtain ⟨r, rfl⟩ | ⟨-, c, i, -, -, he⟩ | ⟨-, fn, f, -, he⟩ | ⟨-, -, rfl⟩ | ⟨-, -, rfl⟩ := hserve
    · exact .inl ⟨rest, r, rfl⟩
    · exact (exec_refusals he).imp_left fun hr => ⟨rest, hr⟩
    · exact (exec_refusals he).imp_left fun hr => ⟨rest, hr⟩
    · exact .inr ⟨rfl, rfl⟩
    · exact .inr ⟨State.endRun_refused _, State.endRun_refusals _⟩

/-- Settles O41: a step that records a refusal is that refusal, which sets only the mark, its reasons and the result. -/
theorem refusedStepChangesOnlyTheRefusalMark : Obligations.RefusedStepChangesOnlyTheRefusalMark := by
  intro s t hstep hnew
  obtain ⟨rest, r, rfl⟩ | ⟨-, hsame⟩ := step_refusals hstep
  · exact ⟨rfl, rfl, rfl, rfl, rfl, rfl, rfl, rfl, rfl⟩
  · exact absurd hsame hnew

/-! ### Exceptions: what can set `VIOL` (R142) -/

/-- `VIOL` and the causes recorded are those of `s`. -/
def SameViolations (s t : State) : Prop := t.viol = s.viol ∧ t.violations = s.violations

/-- `VIOL` is set, and `v` is recorded after the causes of `s`. -/
def Violated (v : Violation) (s t : State) : Prop := t.viol = true ∧ t.violations = s.violations ++ [v]

/-- The violation an instruction can raise in the middle of a read cycle of axis `a` (R142). -/
inductive InstrCause (a : Axis) : Instr → Violation → Prop where
  | write (u : Target) (d : Byte) : InstrCause a (.wrb u d) .v1
  | otherAxis {u : Target} (hu : u.cls = .data) (ha : u.axis ≠ a) : InstrCause a (.rdb u) .v2
  | flagRead {u : Target} (hu : u.cls = .flags) : InstrCause a (.rdb u) .v3
  | setdir (m : Dir) : InstrCause a (.setdir m) .v4

/-- The violation a host input can raise in the middle of a read cycle of axis `a` (R142). -/
inductive InputCause (a : Axis) : HostInput → Violation → Prop where
  | word {c : CodeWord} {i : Instr} {v : Violation} (hd : decode c = .ok i) (hi : InstrCause a i v) :
      InputCause a (.word c) v
  | endOfRun : InputCause a .endOfRun .v5

/-- `VIOL` and its causes under a violation raised where `p` holds. -/
theorem sameViolations_or_violated {s t : State} {v : Violation} {p : Prop} [Decidable p]
    (hviol : t.viol = (s.viol || decide p)) (hcauses : t.violations = s.violations ++ (if p then [v] else [])) :
    SameViolations s t ∨ p ∧ Violated v s t := by
  by_cases hp : p
  · exact .inr ⟨hp, by simpa [hp] using hviol, by simpa [hp] using hcauses⟩
  · exact .inl ⟨by simpa [hp] using hviol, by simpa [hp] using hcauses⟩

theorem setDirection_violation (m : Dir) (s : State) :
    SameViolations s (setDirection m s) ∨ s.cursor ≠ 0 ∧ Violated .v4 s (setDirection m s) :=
  sameViolations_or_violated (by simp [bne, beq_eq_decide]) (by simp)

theorem writeByte_violation (t : Target) (d : Byte) (s : State) :
    SameViolations s (writeByte t d s) ∨ s.cursor ≠ 0 ∧ Violated .v1 s (writeByte t d s) :=
  sameViolations_or_violated (by simp [bne, beq_eq_decide]) (by simp)

theorem readByte_data_violation {t : Target} (s : State) (ht : t.cls = .data) :
    SameViolations s (readByte t s) ∨ (s.cursor ≠ 0 ∧ t.axis ≠ s.cycleAxis) ∧ Violated .v2 s (readByte t s) := by
  obtain ⟨-, hviol, hv2⟩ := readByte_data_check s ht
  exact sameViolations_or_violated (by simpa [bne, beq_eq_decide] using hviol) hv2

theorem readByte_flags_violation {t : Target} (s : State) (ht : t.cls = .flags) :
    SameViolations s (readByte t s) ∨ s.cursor ≠ 0 ∧ Violated .v3 s (readByte t s) := by
  obtain ⟨-, hviol, hv3⟩ := readByte_flags_check s ht
  exact sameViolations_or_violated (by simpa [bne, beq_eq_decide] using hviol) hv3

theorem endRun_violation (s : State) : SameViolations s s.endRun ∨ s.cursor ≠ 0 ∧ Violated .v5 s s.endRun :=
  sameViolations_or_violated (by simp [bne, beq_eq_decide]) (by simp)

theorem answerEncoder_sameViolations (r : Except RefusalReason Byte) (s : State) :
    SameViolations s (s.answerEncoder r) := by
  cases r <;> exact ⟨rfl, rfl⟩

/-- An instruction raises its own violation in the middle of a read cycle, or none. -/
theorem exec_violations {i : Instr} {s t : State} (h : exec i s = .next t) :
    SameViolations s t ∨ s.cursor ≠ 0 ∧ ∃ v, InstrCause s.cycleAxis i v ∧ Violated v s t := by
  obtain ⟨r, rfl⟩ | ⟨-, m, rfl, rfl⟩ | ⟨-, u, d, rfl, -, rfl⟩ | ⟨-, u, rfl, hu, rfl⟩ | ⟨b, rfl⟩ := exec_cases h
  · exact .inl ⟨rfl, rfl⟩
  · exact (setDirection_violation m s).imp_right fun ⟨h0, hv⟩ => ⟨h0, _, .setdir m, hv⟩
  · exact (writeByte_violation u d s).imp_right fun ⟨h0, hv⟩ => ⟨h0, _, .write u d, hv⟩
  · cases hcls : u.cls with
    | data => exact (readByte_data_violation s hcls).imp_right fun ⟨⟨h0, ha⟩, hv⟩ => ⟨h0, _, .otherAxis hcls ha, hv⟩
    | flags => exact (readByte_flags_violation s hcls).imp_right fun ⟨h0, hv⟩ => ⟨h0, _, .flagRead hcls, hv⟩
    | command => exact absurd hcls ((readable_iff u).mp hu)
  · exact .inl ⟨rfl, rfl⟩

/-- A step raises the violation of its input in the middle of a read cycle, or none. -/
theorem step_violations {s t : State} (h : step s = .next t) :
    SameViolations s t ∨ s.cursor ≠ 0 ∧ ∃ inp rest v,
      s.pending = inp :: rest ∧ InputCause s.cycleAxis inp v ∧ Violated v s t := by
  obtain ⟨-, rfl⟩ | ⟨inp, rest, hp, hserve⟩ := step_cases h
  · exact .inl ⟨rfl, rfl⟩
  · obtain ⟨r, rfl⟩ | ⟨-, c, i, rfl, hd, he⟩ | ⟨-, fn, f, -, he⟩ | ⟨-, -, rfl⟩ | ⟨-, rfl, rfl⟩ := hserve
    · exact .inl ⟨rfl, rfl⟩
    · exact (exec_violations he).imp_right fun ⟨h0, v, hi, hv⟩ => ⟨h0, _, rest, v, hp, .word hd hi, hv⟩
    · rw [exec_fnInstr] at he
      cases he
      exact .inl (answerEncoder_sameViolations _ { s with pending := rest })
    · exact .inl ⟨rfl, rfl⟩
    · exact (endRun_violation { s with pending := rest }).imp_right fun ⟨h0, hv⟩ => ⟨h0, _, rest, _, hp, .endOfRun, hv⟩

/-- Settles O40: a step that takes `VIOL` from 0 to 1 raises the violation of its input, one case a cause of R142. -/
theorem violationsHaveAListedCause : Obligations.ViolationsHaveAListedCause := by
  intro s t hstep hs ht
  obtain ⟨hviol, -⟩ | ⟨h0, inp, rest, v, hp, hcause, -, hv⟩ := step_violations hstep
  · simp [hviol, hs] at ht
  · refine ⟨h0, inp, rest, hp, ?_⟩
    cases hcause with
    | word hd hi =>
      cases hi with
      | write u d => exact .inl ⟨_, u, d, rfl, hd, hv⟩
      | otherAxis hu ha => exact .inr (.inl ⟨_, _, rfl, hd, hu, ha, hv⟩)
      | flagRead hu => exact .inr (.inr (.inl ⟨_, _, rfl, hd, hu, hv⟩))
      | setdir m => exact .inr (.inr (.inr (.inl ⟨_, m, rfl, hd, hv⟩)))
    | endOfRun => exact .inr (.inr (.inr (.inr ⟨rfl, hv⟩)))

/-! ### Exceptions: the marks are sticky (R143) -/

theorem step_viol_sticky {s t : State} (h : step s = .next t) :
    (s.viol = true → t.viol = true) ∧ s.violations <+: t.violations := by
  obtain ⟨hviol, hcauses⟩ | ⟨-, -, -, v, -, -, hviol, hcauses⟩ := step_violations h
  · exact ⟨hviol.trans, hcauses ▸ List.prefix_rfl⟩
  · exact ⟨fun _ => hviol, hcauses ▸ List.prefix_append _ _⟩

theorem step_refused_sticky {s t : State} (h : step s = .next t) :
    (s.refused = true → t.refused = true) ∧ s.refusals <+: t.refusals := by
  obtain ⟨rest, r, rfl⟩ | ⟨hrefused, hreasons⟩ := step_refusals h
  · exact ⟨fun _ => rfl, List.prefix_append _ _⟩
  · exact ⟨hrefused.trans, hreasons ▸ List.prefix_rfl⟩

/-- Settles O39: a step sets a mark and records one more cause or reason, or it leaves the mark and its record alone. -/
theorem marksAreSticky : Obligations.MarksAreSticky := by
  intro s t hstep
  obtain ⟨hviol, hcauses⟩ := step_viol_sticky hstep
  obtain ⟨hrefused, hreasons⟩ := step_refused_sticky hstep
  exact ⟨hviol, hrefused, hcauses, hreasons⟩

end Sys2Proof.Machine

namespace Sys2Proof.Machine

/-! ### Reset: the launch state and the reset event (70_reset_and_hazards.md R153) -/

/-- Settles O34: the values of `State.reset`, which has no input for a step to take. -/
theorem launchStateIsTheResetState : Obligations.LaunchStateIsTheResetState :=
  ⟨rfl, rfl, rfl, rfl, rfl, rfl, rfl, rfl, rfl, step_nil rfl⟩

/-- Settles O33: serving a reset input is `State.resetEvent`, which leaves the rest of the stream pending. -/
theorem resetEventReturnsToIdle : Obligations.ResetEventReturnsToIdle :=
  ⟨rfl, rfl, fun _ _ h hc => ⟨_, step_served h hc rfl,
    rfl, rfl, rfl, rfl, rfl, rfl, rfl, rfl, rfl, rfl, rfl, rfl, rfl, rfl, fun hrest => step_nil hrest⟩⟩

/-! ### Hazards: the events of an instruction -/

/-- An instruction emits nothing, a direction switch, the trace of a `WRB` or the trace of an `RDB`. -/
theorem exec_emits {i : Instr} {s t : State} (h : exec i s = .next t) :
    ∃ es, t.trace = s.trace ++ es ∧
      (es = [] ∨ (∃ m, es = dirSwitch s.params m) ∨ (∃ u d, es = writeTrace s.params u d) ∨
        ∃ u, es = readTrace s.params u s.cursor) := by
  obtain ⟨r, rfl⟩ | ⟨-, m, -, rfl⟩ | ⟨-, u, d, -, -, rfl⟩ | ⟨-, u, -, -, rfl⟩ | ⟨b, rfl⟩ := exec_cases h
  · exact ⟨[], (List.append_nil _).symm, .inl rfl⟩
  · exact ⟨_, setDirection_trace m s, .inr (.inl ⟨m, rfl⟩)⟩
  · exact ⟨_, writeByte_trace u d s, .inr (.inr (.inl ⟨u, d, rfl⟩))⟩
  · exact ⟨_, readByte_trace u s, .inr (.inr (.inr ⟨u, rfl⟩))⟩
  · exact ⟨[], (List.append_nil _).symm, .inl rfl⟩

/-- The events of an `RDB` after its direction switch. -/
def readAfterSwitch (p : Params) (t : Target) (cursor : BitVec 2) : List Event :=
  [pattern p t, .drive { csN := some .low, rdN := some .low }, .wait (.ns 80), .sample, closureOf t cursor,
    .wait (.ns 90)]

theorem readTrace_eq_switch_append (p : Params) (t : Target) (cursor : BitVec 2) :
    readTrace p t cursor = dirSwitch p .input ++ readAfterSwitch p t cursor := rfl

/-- The closure of a read is one `Drive` (42_transaction_engine.md R101). -/
theorem closureOf_eq_drive (t : Target) (cursor : BitVec 2) : ∃ d : Drive, closureOf t cursor = .drive d := by
  unfold closureOf
  split_ifs <;> exact ⟨_, rfl⟩

/-! ### Hazards: the settle delay (R158) -/

/-- A direction switch settles by itself, whatever follows it. -/
theorem settled_dirSwitch_append (p : Params) (m : Dir) (es : List Event) :
    settled (dirSwitch p m ++ es) = settled es := rfl

theorem settled_writeTrace (p : Params) (t : Target) (d : Byte) : settled (writeTrace p t d) = true :=
  settled_dirSwitch_append p .output _

theorem settled_readTrace (p : Params) (t : Target) (cursor : BitVec 2) : settled (readTrace p t cursor) = true := by
  obtain ⟨d, hd⟩ := closureOf_eq_drive t cursor
  rw [readTrace_eq_switch_append, settled_dirSwitch_append, readAfterSwitch, hd]
  rfl

/-- Settles O44: the only `SetMode` of an operation is the one of its direction switch. -/
theorem everyDirectionSwitchSettles : Obligations.EveryDirectionSwitchSettles := by
  intro i s t h
  obtain ⟨es, htrace, hes⟩ := exec_emits h
  refine ⟨es, htrace, ?_⟩
  obtain rfl | ⟨m, rfl⟩ | ⟨u, d, rfl⟩ | ⟨u, rfl⟩ := hes
  · rfl
  · exact settled_dirSwitch_append _ m []
  · exact settled_writeTrace _ u d
  · exact settled_readTrace _ u _

/-! ### Hazards: bus contention (R166) -/

theorem Pins.contention_of_readHigh {l : Pins} (h : l.rdN = .high) : l.contention = false := by
  simp [Pins.contention, h]

theorem Pins.contention_of_input {l : Pins} (h : l.dir = .input) : l.contention = false := by
  simp [Pins.contention, h]

/-- What holds of the lines and is kept by each event holds at every point of the run. -/
theorem pinHistory_forall {P : Pins → Prop} {es : List Event} (hkeep : ∀ e ∈ es, ∀ l, P l → P (e.apply l)) {l : Pins}
    (hl : P l) : ∀ x ∈ pinHistory l es, P x := by
  induction es generalizing l with
  | nil => simpa [pinHistory] using hl
  | cons e es ih =>
    obtain ⟨he, hes⟩ := List.forall_mem_cons.mp hkeep
    exact List.forall_mem_cons.mpr ⟨hl, ih hes (he l hl)⟩

/-- A point of a run in two parts is a point of the one or of the other. -/
theorem mem_pinHistory_append {x l : Pins} {es fs : List Event} (h : x ∈ pinHistory l (es ++ fs)) :
    x ∈ pinHistory l es ∨ x ∈ pinHistory (replay l es) fs := by
  induction es generalizing l with
  | nil => exact .inr h
  | cons e es ih =>
    obtain rfl | htail := List.mem_cons.mp h
    · exact .inl List.mem_cons_self
    · exact (ih htail).imp_left (List.mem_cons_of_mem l)

theorem dirSwitch_readHigh (p : Params) (m : Dir) {l : Pins} (h : l.rdN = .high) :
    ∀ x ∈ pinHistory l (dirSwitch p m), x.rdN = .high :=
  pinHistory_forall (P := (·.rdN = .high)) (by simp [dirSwitch, Event.apply]) h

theorem writeTrace_readHigh (p : Params) (t : Target) (d : Byte) {l : Pins} (h : l.rdN = .high) :
    ∀ x ∈ pinHistory l (writeTrace p t d), x.rdN = .high :=
  pinHistory_forall (P := (·.rdN = .high)) (by simp [writeTrace, dirSwitch, pattern, Event.apply, Drive.apply]) h

theorem readAfterSwitch_input (p : Params) (t : Target) (cursor : BitVec 2) {l : Pins} (h : l.dir = .input) :
    ∀ x ∈ pinHistory l (readAfterSwitch p t cursor), x.dir = .input := by
  obtain ⟨d, hd⟩ := closureOf_eq_drive t cursor
  exact pinHistory_forall (P := (·.dir = .input)) (by simp [readAfterSwitch, hd, pattern, Event.apply, Drive.apply]) h

/-- In an `RDB` the read strobe is high until the data lines are inputs, and they stay so. -/
theorem readTrace_noContention (p : Params) (t : Target) (cursor : BitVec 2) {l : Pins} (h : l.rdN = .high) :
    ∀ x ∈ pinHistory l (readTrace p t cursor), x.contention = false := by
  intro x hx
  rw [readTrace_eq_switch_append] at hx
  obtain hswitch | hafter := mem_pinHistory_append hx
  · exact Pins.contention_of_readHigh (dirSwitch_readHigh p .input h x hswitch)
  · exact Pins.contention_of_input (readAfterSwitch_input p t cursor rfl x hafter)

/-- Settles O45: only an `RDB` lowers the read strobe, and it has made the data lines inputs before. -/
theorem noContentionInsideAnOperation : Obligations.NoContentionInsideAnOperation := by
  intro i s t hr h
  obtain ⟨es, htrace, hes⟩ := exec_emits h
  refine ⟨es, htrace, ?_⟩
  obtain rfl | ⟨m, rfl⟩ | ⟨u, d, rfl⟩ | ⟨u, rfl⟩ := hes
  · simpa [pinHistory] using Pins.contention_of_readHigh hr
  · exact fun x hx => Pins.contention_of_readHigh (dirSwitch_readHigh _ m hr x hx)
  · exact fun x hx => Pins.contention_of_readHigh (writeTrace_readHigh _ u d hr x hx)
  · exact readTrace_noContention _ u _ hr

end Sys2Proof.Machine
